-- ==== Sys2Proof/Word.lean ====
section
/-! DEFINITION. The word types of the FP1020A protocol block: bytes, 16-bit values and the packed
forms of a frame, of the parameters and of a reply (`00_scope.md` R6, `30_encoding.md` R47). -/

namespace Sys2Proof

/-- A byte: 8 bits, unsigned (R5 `BYTE`, R6). -/
abbrev Byte := BitVec 8

/-- An unsigned 16-bit value: a user id, a bound of an id range, a count (R5 `UID_WIDTH`, R9). -/
abbrev Word16 := BitVec 16

/-- Four parameter bytes packed as `p0 ‖ p1 ‖ p2 ‖ p3` (R47). -/
abbrev ParamWord := BitVec 32

/-- A frame packed with frame byte 0 in bits 63:56 (R47). -/
abbrev FrameWord := BitVec 64

/-- A reply packed with reply byte 0 in bits 39:32 (R47). -/
abbrev ReplyWord := BitVec 40

end Sys2Proof
end

