-- ==== Sys2Proof/Machine/Codes.lean ====
section
/-! DEFINITION. The enumerations of the spec and their codes: the source's own (`00_scope.md` R10), the
op tags (`30_encoding.md` R49), the result kinds (R52), the TransportError causes (`60_exceptions.md`
R102), the refusal codes (R104) and the Dispatcher's states (`10_state.md` R12). -/

namespace Sys2Proof.Machine

/-- The Dispatcher FSM state (R12). -/
inductive Fsm where
  /-- No exchange in progress; the command port is ready. -/
  | idle
  /-- A Transport write of `frame` is outstanding. -/
  | write
  /-- A timed Transport read of 5 bytes is outstanding. -/
  | read
  /-- A result is held on the result port until the host takes it. -/
  | done
  deriving DecidableEq, Repr

/-- The 2-bit encoding of `state` (R12). -/
def Fsm.code : Fsm → BitVec 2
  | .idle => 0b00#2
  | .write => 0b01#2
  | .read => 0b10#2
  | .done => 0b11#2

/-- The operations the 13 assigned op tags name (R49). -/
inductive OpTag where
  | rawExch | rawSend | enroll | removeOne | removeAll | getUserCount | compareOne
  | authenticate | getUserLevel | setCompareLevel | setBaudRate | getNextAvailableId | sleep
  deriving DecidableEq, Repr

/-- The 4-bit op tag (R49). -/
def OpTag.code : OpTag → BitVec 4
  | .rawExch => 0x0#4
  | .rawSend => 0x1#4
  | .enroll => 0x2#4
  | .removeOne => 0x3#4
  | .removeAll => 0x4#4
  | .getUserCount => 0x5#4
  | .compareOne => 0x6#4
  | .authenticate => 0x7#4
  | .getUserLevel => 0x8#4
  | .setCompareLevel => 0x9#4
  | .setBaudRate => 0xA#4
  | .getNextAvailableId => 0xB#4
  | .sleep => 0xC#4

/-- The operation of a 4-bit tag; `0xD`, `0xE` and `0xF` are reserved and name none (R49). -/
def opTagOfCode (c : BitVec 4) : Option OpTag :=
  match c.toNat with
  | 0 => some .rawExch
  | 1 => some .rawSend
  | 2 => some .enroll
  | 3 => some .removeOne
  | 4 => some .removeAll
  | 5 => some .getUserCount
  | 6 => some .compareOne
  | 7 => some .authenticate
  | 8 => some .getUserLevel
  | 9 => some .setCompareLevel
  | 10 => some .setBaudRate
  | 11 => some .getNextAvailableId
  | 12 => some .sleep
  | _ => none

/-- Does the operation await a reply (R15, R49)? All but `RAW_SEND` and `SLEEP` do. -/
def OpTag.expectsReply : OpTag → Bool
  | .rawSend | .sleep => false
  | _ => true

/-- EnrollStage (R10): which of the three enroll opcodes a touch sends. -/
inductive EnrollStage where
  | first | intermediate | last
  deriving DecidableEq, Repr

/-- EnrollStage codes, which are the opcodes AddFinger1 to AddFinger3 (R10, R53, R54). -/
def EnrollStage.code : EnrollStage → Byte
  | .first => 0x01#8
  | .intermediate => 0x02#8
  | .last => 0x03#8

/-- UserLevel (R10). -/
inductive UserLevel where
  | fail | level1 | level2 | level3
  deriving DecidableEq, Repr

/-- The level a byte names: Level1 to Level3 for 1 to 3, nothing otherwise (R10, R85). -/
def userLevelOfByte (b : Byte) : Option UserLevel :=
  match b.toNat with
  | 1 => some .level1
  | 2 => some .level2
  | 3 => some .level3
  | _ => none

/-- BaudRate (R10); `unknown` is the source's sentinel. -/
inductive BaudRate where
  | unknown | b9600 | b19200 | b38400 | b57600 | b115200
  deriving DecidableEq, Repr

/-- The rate a byte names: codes 1 to 5 (R86), nothing otherwise. -/
def baudRateOfByte (b : Byte) : Option BaudRate :=
  match b.toNat with
  | 1 => some .b9600
  | 2 => some .b19200
  | 3 => some .b38400
  | 4 => some .b57600
  | 5 => some .b115200
  | _ => none

/-- The rates that have a BaudRate code, 1 to 5: BaudRate without the sentinel (R5, R10, R86). -/
inductive Rate where
  | b9600 | b19200 | b38400 | b57600 | b115200
  deriving DecidableEq, Repr

/-- The BaudRate code of a rate (R86). -/
def Rate.code : Rate → Byte
  | .b9600 => 1#8
  | .b19200 => 2#8
  | .b38400 => 3#8
  | .b57600 => 4#8
  | .b115200 => 5#8

/-- The classes of an ack byte (R83): the source's eight names, and `other` for every other byte. -/
inductive AckCode where
  | success | fail | full | noUser | userOccupied | userExist | timeout | tryAgain
  | other (b : Byte)
  deriving DecidableEq, Repr

/-- The sixteen result kinds (R52). -/
inductive ResKind where
  | ack | count | authMatch | authFail | authOther | level | levelFail | levelOther
  | baud | baudOther | id | idNone | sent | raw | transportError | argRefused
  deriving DecidableEq, Repr

/-- The 4-bit encoding of `res_kind` (R52). -/
def ResKind.code : ResKind → BitVec 4
  | .ack => 0x0#4
  | .count => 0x1#4
  | .authMatch => 0x2#4
  | .authFail => 0x3#4
  | .authOther => 0x4#4
  | .level => 0x5#4
  | .levelFail => 0x6#4
  | .levelOther => 0x7#4
  | .baud => 0x8#4
  | .baudOther => 0x9#4
  | .id => 0xA#4
  | .idNone => 0xB#4
  | .sent => 0xC#4
  | .raw => 0xD#4
  | .transportError => 0xE#4
  | .argRefused => 0xF#4

/-- TransportError causes (R102). -/
inductive Cause where
  | writeErr | writeShort | readErr | readTimeout | readShort
  deriving DecidableEq, Repr

/-- The cause code in `res_aux` (R102). -/
def Cause.code : Cause → Byte
  | .writeErr => 0x01#8
  | .writeShort => 0x02#8
  | .readErr => 0x03#8
  | .readTimeout => 0x04#8
  | .readShort => 0x05#8

/-- Why `ArgCheck` refuses a command (R68, R104). -/
inductive RefuseCode where
  | reservedOp | badStage | badLevel | badCompareLevel | badBaud
  deriving DecidableEq, Repr

/-- The refusal code in `res_aux` (R104). -/
def RefuseCode.code : RefuseCode → Byte
  | .reservedOp => 0x01#8
  | .badStage => 0x02#8
  | .badLevel => 0x03#8
  | .badCompareLevel => 0x04#8
  | .badBaud => 0x05#8

end Sys2Proof.Machine
end

