-- ==== Sys2Proof/Config.lean ====
section
/-! DEFINITION. What an implementation of the block fixes: the constants of `00_scope.md` R5, and the two
parameters R5 leaves OPEN, which State carries so that a statement about every state holds for every
value of them (log entry 5). -/

namespace Sys2Proof

/-- `LEAD` and `TRAIL`, the marker byte (R5, R45). -/
abbrev Config.marker : Byte := 0xF5#8

/-- `FRAME_LEN` (R5). -/
def Config.frameLen : Nat := 8

/-- `PAYLOAD_LEN` (R5). -/
def Config.payloadLen : Nat := 5

/-- `REPLY_LEN` (R5). -/
def Config.replyLen : Nat := 5

/-- The open parameters of R5. -/
structure Config.Params where
  /-- `READ_TIMEOUT`, in milliseconds (DESIGN CHOICE of the unit, log entry 5). -/
  readTimeout : Nat
  /-- `INITIAL_DEVICE_BAUD`: the device's rate when the host starts, a BaudRate code 1 to 5 (R5, R120). -/
  initialDeviceBaud : Machine.Rate
  deriving DecidableEq, Repr

/-- The reference values: 10 seconds and B19200 (R5, R35, R120). -/
def Config.reference : Config.Params :=
  { readTimeout := 10000, initialDeviceBaud := .b19200 }

end Sys2Proof
end

