-- ==== Sys2Proof/Machine/Bits.lean ====
section
/-! DEFINITION. The operators of `00_scope.md` R7 and the packed forms of `30_encoding.md` R47: the one
place where byte order is decided (`20_memory.md` R28 to R30: big-endian, byte 0 first). -/

namespace Sys2Proof.Machine

/-- `hi8(v) = v[15:8]` (R7). -/
def hi8 (v : Word16) : Byte := v.extractLsb' 8 8

/-- `lo8(v) = v[7:0]` (R7). -/
def lo8 (v : Word16) : Byte := v.extractLsb' 0 8

/-- `be16(hi, lo) = hi * 256 + lo` (R7): the more significant byte first (R29). -/
def be16 (hi lo : Byte) : Word16 := hi ++ lo

/-- The exclusive-or of a sequence of bytes; `0x00` for the empty one (R7). -/
def xorfold : List Byte → Byte
  | [] => 0x00#8
  | b :: bs => b ^^^ xorfold bs

/-- Eight bytes as one frame word, byte 0 most significant (R47). -/
def packFrame (b0 b1 b2 b3 b4 b5 b6 b7 : Byte) : FrameWord :=
  b0 ++ b1 ++ b2 ++ b3 ++ b4 ++ b5 ++ b6 ++ b7

/-- Byte `k` of a packed frame, `k` from 0 (lead) to 7 (trail) (R45, R47). -/
def frameByte (f : FrameWord) (k : Nat) : Byte := f.extractLsb' (8 * (7 - k)) 8

/-- The frame as the bytes that go on the wire, in index order (R28). -/
def frameBytes (f : FrameWord) : List Byte :=
  [frameByte f 0, frameByte f 1, frameByte f 2, frameByte f 3,
   frameByte f 4, frameByte f 5, frameByte f 6, frameByte f 7]

/-- Five reply bytes as one word, `r0` most significant (R47). -/
def packReply (r0 r1 r2 r3 r4 : Byte) : ReplyWord := r0 ++ r1 ++ r2 ++ r3 ++ r4

/-- Byte `k` of a packed reply, `k` from 0 to 4 (R46, R47). -/
def replyByte (r : ReplyWord) (k : Nat) : Byte := r.extractLsb' (8 * (4 - k)) 8

/-- Byte `k` of packed parameters, `k` from 0 to 3 (R47). -/
def paramByte (p : ParamWord) (k : Nat) : Byte := p.extractLsb' (8 * (3 - k)) 8

end Sys2Proof.Machine
end

