-- ==== Sys2Proof/Machine/FrameCodec.lean ====
section
/-! DEFINITION. The FrameCodec (`40_framecodec.md`): a pure encoder of five payload bytes into an 8-byte
frame, and the checking predicate a reader of the TX stream uses. -/

namespace Sys2Proof.Machine

/-- The five payload bytes of a frame (R45, indices 1 to 5). -/
structure Payload where
  cmd : Byte
  p0 : Byte
  p1 : Byte
  p2 : Byte
  p3 : Byte
  deriving DecidableEq, Repr

/-- The payload in index order (R62). -/
def Payload.bytes (p : Payload) : List Byte := [p.cmd, p.p0, p.p1, p.p2, p.p3]

/-- The checksum: the exclusive-or of the five payload bytes (R45, R62). -/
def checksum (p : Payload) : Byte := xorfold p.bytes

/-- `Encode(cmd, p)` (R62). -/
def frameEncode (p : Payload) : FrameWord :=
  packFrame Config.marker p.cmd p.p0 p.p1 p.p2 p.p3 (checksum p) Config.marker

/-- The payload bytes of a frame, indices 1 to 5. -/
def framePayload (f : FrameWord) : Payload :=
  { cmd := frameByte f 1, p0 := frameByte f 2, p1 := frameByte f 3,
    p2 := frameByte f 4, p3 := frameByte f 5 }

/-- `WellFormed(f)` (R65). The block never evaluates it. -/
def frameOk (f : FrameWord) : Bool :=
  decide (frameByte f 0 = Config.marker ∧ frameByte f 7 = Config.marker ∧
    frameByte f 6 = frameByte f 1 ^^^ frameByte f 2 ^^^ frameByte f 3 ^^^ frameByte f 4 ^^^ frameByte f 5)

end Sys2Proof.Machine
end

