-- ==== Sys2Proof/Machine/Ports.lean ====
section
/-! DEFINITION. What crosses the block's ports, and the events of the four agents: the command port
(`30_encoding.md` R48, R50), the result port (R51, R52), the Transport port (`20_memory.md` R33, R34), and the
events that fire the transitions of `41_dispatcher.md` R66. -/

namespace Sys2Proof.Machine

/-- The fields of the command port (R50). A field an operation does not use is ignored. -/
structure Command where
  op : BitVec 4
  a16 : Word16
  b16 : Word16
  s8 : Byte
  v8 : Byte
  rc8 : Byte
  rp32 : ParamWord
  deriving DecidableEq, Repr

/-- The four result registers, always written together (R17, R51, R52). -/
structure Result where
  /-- `res_kind`, 4 bits (`ResKind.code`). -/
  kind : ResKind
  /-- `res_aux`, 8 bits. -/
  aux : Byte
  /-- `res_value`, 16 bits. -/
  value : Word16
  /-- `res_reply`, 40 bits. -/
  reply : ReplyWord
  deriving DecidableEq, Repr

/-- All four result registers zero (R23); kind code `0x0` is `ACK`. -/
def Result.zero : Result := ⟨.ack, 0#8, 0#16, 0#40⟩

/-- What the block learns when a write completes (R33): the count, or that it failed. -/
inductive WriteResult where
  | ok (n : Fin 9)
  | err
  deriving DecidableEq, Repr

/-- What the block learns when a read completes (R34): the bytes, or that it failed. -/
inductive ReadResult where
  | ok (bytes : List Byte)
  | err
  deriving DecidableEq, Repr

/-- The completion now standing on the Transport port, within one step (the model's own, log entry 3). -/
inductive PortSignal where
  | quiet
  | wrote (w : WriteResult)
  | got (r : ReadResult)
  deriving DecidableEq, Repr

/-- One event of the environment (R66 and R4). A draw of the spec is an argument of the event, so that a
statement about every schedule covers every draw. -/
inductive Event where
  /-- Host: `cmd_valid = 1` with these fields (R48). -/
  | present (c : Command)
  /-- Host: `res_take = 1` (R51, R77). -/
  | take
  /-- Host: reads the result registers off the result port, without taking (R24). -/
  | sample
  /-- Transport: the write completes with `Ok(n)` (R33). -/
  | writeOk (n : Fin 9)
  /-- Transport: the write completes with `Err`, after a prefix of `k` bytes went out (R33). -/
  | writeErr (k : Fin 9)
  /-- Transport: the read completes without an error: full if the RX stream holds 5 bytes, else short
  because the timeout expired (R34 (a) and (b), R36). -/
  | readReturn
  /-- Transport: the read completes with `Err`, having removed `j` bytes, at most all there are (R37). -/
  | readErr (j : Fin 6)
  /-- Device: appends bytes to the RX stream (R27). -/
  | deviceSends (bytes : List Byte)
  /-- Time passes, in milliseconds (R35). -/
  | elapse (dt : Nat)
  /-- The Transport-setup collaborator sets the Transport's baud rate, to one of the five with a code or to none of them
  (R119, R125; the domain is the model's, log entry 23). -/
  | configure (rate : Option Rate)
  /-- Reset, with R117's draws: `k` bytes of an abandoned write out, `j` bytes of an abandoned read gone. -/
  | reset (k : Fin 9) (j : Fin 5)
  /-- Another agent uses the same Transport (R122): outside the spec. -/
  | foreign
  deriving DecidableEq, Repr

end Sys2Proof.Machine
end

