-- ==== Sys2Proof/Syntax.lean ====
section
/-! DEFINITION. The instructions: the commands a host can present, one constructor per row of
`spec/opcode_table.json`. A byte operand may be outside its domain (`30_encoding.md` R50); such a command
is still a command, and the block refuses it (`41_dispatcher.md` R68). -/

namespace Sys2Proof

/-- The operations of the block (R49, R53, R59, R60). -/
inductive Instr where
  /-- `ENROLL_START uid level`: ENROLL, stage First (R60, R88). -/
  | enrollStart (uid : Word16) (level : Byte)
  /-- `ENROLL_INTERMEDIATE uid level`: ENROLL, stage Intermediate (R60, R88). -/
  | enrollIntermediate (uid : Word16) (level : Byte)
  /-- `ENROLL_END uid level`: ENROLL, stage Last (R60, R88). -/
  | enrollEnd (uid : Word16) (level : Byte)
  /-- `REMOVE_ONE uid` (R89). -/
  | removeOne (uid : Word16)
  /-- `REMOVE_ALL` (R90). -/
  | removeAll
  /-- `GET_USER_COUNT` (R91). -/
  | getUserCount
  /-- `GET_USER_LEVEL uid` (R94). -/
  | getUserLevel (uid : Word16)
  /-- `COMPARE_ONE uid` (R92). -/
  | compareOne (uid : Word16)
  /-- `AUTHENTICATE` (R93). -/
  | authenticate
  /-- `SET_BAUD_RATE new` (R96). -/
  | setBaudRate (new : Byte)
  /-- `SET_COMPARE_LEVEL lvl` (R95). -/
  | setCompareLevel (lvl : Byte)
  /-- `SLEEP` (R98). -/
  | sleep
  /-- `GET_NEXT_AVAILABLE_ID lo hi` (R97). -/
  | getNextAvailableId (lo hi : Word16)
  /-- `RAW_EXCH cmd p` (R79). -/
  | rawExch (cmd : Byte) (params : ParamWord)
  /-- `RAW_SEND cmd p` (R80). -/
  | rawSend (cmd : Byte) (params : ParamWord)
  deriving DecidableEq, Repr

end Sys2Proof
end

