-- ==== Sys2Proof/WellFormed.lean ====
section
/-! DEFINITION. Well-formed instructions: every operand in the domain the source's types give it
(`30_encoding.md` R50, `41_dispatcher.md` R68, `92_eei_decisions.md` D11). -/

namespace Sys2Proof

/-- A user level that can be sent: Level1 to Level3 (R68 line 3). -/
def sendableLevel (v : Byte) : Bool := v = 1#8 || v = 2#8 || v = 3#8

/-- A compare level: 0 to 9 (R5 `COMPARE_LEVEL_RANGE`, R68 line 4). -/
def compareLevelInRange (v : Byte) : Bool := decide (v.toNat ≤ 9)

/-- A BaudRate code that can be sent: 1 to 5 (R68 line 5). -/
def sendableBaud (v : Byte) : Bool := v = 1#8 || v = 2#8 || v = 3#8 || v = 4#8 || v = 5#8

/-- All operands are in their domains. -/
def Instr.wellFormed : Instr → Bool
  | .enrollStart _ level => sendableLevel level
  | .enrollIntermediate _ level => sendableLevel level
  | .enrollEnd _ level => sendableLevel level
  | .removeOne _ => true
  | .removeAll => true
  | .getUserCount => true
  | .getUserLevel _ => true
  | .compareOne _ => true
  | .authenticate => true
  | .setBaudRate new => sendableBaud new
  | .setCompareLevel lvl => compareLevelInRange lvl
  | .sleep => true
  | .getNextAvailableId _ _ => true
  | .rawExch _ _ => true
  | .rawSend _ _ => true

end Sys2Proof
end

