-- ==== Sys2Proof/Machine/Operands.lean ====
section
/-! DEFINITION. Every operand form: the parameter layouts of `30_encoding.md` R53, the argument checks of
`41_dispatcher.md` R68, and the fields of a reply (`42_operations.md` R84). -/

namespace Sys2Proof.Machine

/-- Layout "0,0,0,0" (R53). -/
def payloadBare (cmd : Byte) : Payload := ⟨cmd, 0x00#8, 0x00#8, 0x00#8, 0x00#8⟩

/-- Layout "uid_hi, uid_lo, 0, 0" (R53). -/
def payloadUid (cmd : Byte) (uid : Word16) : Payload := ⟨cmd, hi8 uid, lo8 uid, 0x00#8, 0x00#8⟩

/-- Layout "uid_hi, uid_lo, level, 0", the command byte being the stage (R53, R88). -/
def payloadEnroll (stage : EnrollStage) (uid : Word16) (level : Byte) : Payload :=
  ⟨stage.code, hi8 uid, lo8 uid, level, 0x00#8⟩

/-- Layout "0, lvl, 1 (persist flag), 0" (R53, R95). -/
def payloadCompareLevel (lvl : Byte) : Payload := ⟨0x28#8, 0x00#8, lvl, 0x01#8, 0x00#8⟩

/-- Layout "0,0,new,0" (R53, R96). -/
def payloadBaud (new : Byte) : Payload := ⟨0x21#8, 0x00#8, 0x00#8, new, 0x00#8⟩

/-- Layout "lo_hi,lo_lo,hi_hi,hi_lo" (R53, R97). -/
def payloadRange (lo hi : Word16) : Payload := ⟨0x47#8, hi8 lo, lo8 lo, hi8 hi, lo8 hi⟩

/-- The raw layout: the command byte and the four bytes of `rp32` (R53, R79). -/
def payloadRaw (cmd : Byte) (params : ParamWord) : Payload :=
  ⟨cmd, paramByte params 0, paramByte params 1, paramByte params 2, paramByte params 3⟩

/-- R68 line 3. -/
def checkLevel (v : Byte) : Option RefuseCode := if sendableLevel v then none else some .badLevel

/-- R68 line 4. -/
def checkCompareLevel (v : Byte) : Option RefuseCode :=
  if compareLevelInRange v then none else some .badCompareLevel

/-- R68 line 5. -/
def checkBaud (v : Byte) : Option RefuseCode := if sendableBaud v then none else some .badBaud

/-- The stage an `s8` field names (R50); none outside 1, 2, 3 (R68 line 2). -/
def stageOfByte (b : Byte) : Option EnrollStage :=
  match b.toNat with
  | 1 => some .first
  | 2 => some .intermediate
  | 3 => some .last
  | _ => none

/-- `ArgCheck(cmd)` on the fields of the command port (R68): the first failing line, or `none` for OK. -/
def argCheck (c : Command) : Option RefuseCode :=
  if c.op = 0xD#4 ∨ c.op = 0xE#4 ∨ c.op = 0xF#4 then some .reservedOp
  else if c.op = 0x2#4 ∧ ¬(c.s8 = 1#8 ∨ c.s8 = 2#8 ∨ c.s8 = 3#8) then some .badStage
  else if c.op = 0x2#4 ∧ ¬(c.v8 = 1#8 ∨ c.v8 = 2#8 ∨ c.v8 = 3#8) then some .badLevel
  else if c.op = 0x9#4 ∧ c.v8.toNat > 9 then some .badCompareLevel
  else if c.op = 0xA#4 ∧ ¬(c.v8 = 1#8 ∨ c.v8 = 2#8 ∨ c.v8 = 3#8 ∨ c.v8 = 4#8 ∨ c.v8 = 5#8) then
    some .badBaud
  else none

/-- `ack = r3` (R84). -/
def replyAck (r : ReplyWord) : Byte := replyByte r 3

/-- `val16 = be16(r1, r2)` (R84). -/
def replyVal16 (r : ReplyWord) : Word16 := be16 (replyByte r 1) (replyByte r 2)

end Sys2Proof.Machine
end

