-- ==== Sys2Proof/Decode.lean ====
section
/-! DEFINITION. The decoders and encoders. The block's own instruction word is the set of command-port
fields (`30_encoding.md` R49, R50): `decodeCommand` and `encodeCommand`. The word of `opcode_table.json` is
the FRAME a command produces (R59): `decodeFrame` reads one, `encode` writes one, both from the table's
rows. A frame does not say which op tag produced it, and its checksum is no operand (log entry 2). -/

namespace Sys2Proof

open Machine

/-- The operation of an instruction: its op tag (R49); the three stages of ENROLL share one (R60). -/
def Instr.tag : Instr → OpTag
  | .enrollStart _ _ => .enroll
  | .enrollIntermediate _ _ => .enroll
  | .enrollEnd _ _ => .enroll
  | .removeOne _ => .removeOne
  | .removeAll => .removeAll
  | .getUserCount => .getUserCount
  | .getUserLevel _ => .getUserLevel
  | .compareOne _ => .compareOne
  | .authenticate => .authenticate
  | .setBaudRate _ => .setBaudRate
  | .setCompareLevel _ => .setCompareLevel
  | .sleep => .sleep
  | .getNextAvailableId _ _ => .getNextAvailableId
  | .rawExch _ _ => .rawExch
  | .rawSend _ _ => .rawSend

/-- An enroll touch of the given stage (R60). -/
def enrollInstr (stage : EnrollStage) (uid : Word16) (level : Byte) : Instr :=
  match stage with
  | .first => .enrollStart uid level
  | .intermediate => .enrollIntermediate uid level
  | .last => .enrollEnd uid level

/-- The instruction the command-port fields name (R49, R50), or the refusal of R68 lines 1 and 2: a reserved
tag or a bad stage names no instruction. An operand outside its domain still decodes. -/
def decodeCommand (c : Command) : Except RefuseCode Instr :=
  match opTagOfCode c.op with
  | none => .error .reservedOp
  | some .rawExch => .ok (.rawExch c.rc8 c.rp32)
  | some .rawSend => .ok (.rawSend c.rc8 c.rp32)
  | some .enroll =>
    match stageOfByte c.s8 with
    | none => .error .badStage
    | some stage => .ok (enrollInstr stage c.a16 c.v8)
  | some .removeOne => .ok (.removeOne c.a16)
  | some .removeAll => .ok .removeAll
  | some .getUserCount => .ok .getUserCount
  | some .compareOne => .ok (.compareOne c.a16)
  | some .authenticate => .ok .authenticate
  | some .getUserLevel => .ok (.getUserLevel c.a16)
  | some .setCompareLevel => .ok (.setCompareLevel c.v8)
  | some .setBaudRate => .ok (.setBaudRate c.v8)
  | some .getNextAvailableId => .ok (.getNextAvailableId c.a16 c.b16)
  | some .sleep => .ok .sleep

/-- Why eight bytes are not the frame of any command (R45, R57). -/
inductive FrameReject where
  | badLength | badLead | badTrail
  deriving DecidableEq, Repr

/-- The row of `opcode_table.json`, the two raw rows left out, that a command byte and packed parameters
fit: every fixed bit of the row as the row has it. -/
def namedRow (cmd : Byte) (p : ParamWord) : Option Instr :=
  let uid : Word16 := p.extractLsb' 16 16
  let p0 := paramByte p 0
  let p1 := paramByte p 1
  let p2 := paramByte p 2
  let p3 := paramByte p 3
  match cmd.toNat with
  | 0x01 => if p3 = 0#8 then some (.enrollStart uid p2) else none
  | 0x02 => if p3 = 0#8 then some (.enrollIntermediate uid p2) else none
  | 0x03 => if p3 = 0#8 then some (.enrollEnd uid p2) else none
  | 0x04 => if p2 = 0#8 ∧ p3 = 0#8 then some (.removeOne uid) else none
  | 0x05 => if p = 0#32 then some .removeAll else none
  | 0x09 => if p = 0#32 then some .getUserCount else none
  | 0x0A => if p2 = 0#8 ∧ p3 = 0#8 then some (.getUserLevel uid) else none
  | 0x0B => if p2 = 0#8 ∧ p3 = 0#8 then some (.compareOne uid) else none
  | 0x0C => if p = 0#32 then some .authenticate else none
  | 0x21 => if p0 = 0#8 ∧ p1 = 0#8 ∧ p3 = 0#8 then some (.setBaudRate p2) else none
  | 0x28 => if p0 = 0#8 ∧ p2 = 1#8 ∧ p3 = 0#8 then some (.setCompareLevel p1) else none
  | 0x2C => if p = 0#32 then some .sleep else none
  | 0x47 => some (.getNextAvailableId uid (p.extractLsb' 0 16))
  | _ => none

/-- The instruction a frame word stands for: the named row it fits, else `RAW_EXCH`. The checksum bits are
free in every row and are not looked at. -/
def decodeFrame (f : FrameWord) : Except FrameReject Instr :=
  if f.extractLsb' 56 8 ≠ Config.marker then .error .badLead
  else if f.extractLsb' 0 8 ≠ Config.marker then .error .badTrail
  else
    let cmd : Byte := f.extractLsb' 48 8
    let p : ParamWord := f.extractLsb' 16 32
    match namedRow cmd p with
    | some i => .ok i
    | none => .ok (.rawExch cmd p)

/-- The instruction a sequence of wire bytes stands for: exactly eight of them (R58). -/
def decodeBytes (bs : List Byte) : Except FrameReject Instr :=
  match bs with
  | [b0, b1, b2, b3, b4, b5, b6, b7] => decodeFrame (packFrame b0 b1 b2 b3 b4 b5 b6 b7)
  | _ => .error .badLength

/-- A row of `opcode_table.json` with its fields filled in: `F5 ‖ cmd ‖ p ‖ chk ‖ F5`, the checksum being the
exclusive-or of the five bytes before it. -/
def rowWord (cmd : Byte) (p : ParamWord) : FrameWord :=
  0xF5#8 ++ cmd ++ p ++
    (cmd ^^^ p.extractLsb' 24 8 ^^^ p.extractLsb' 16 8 ^^^ p.extractLsb' 8 8 ^^^ p.extractLsb' 0 8) ++ 0xF5#8

/-- The frame of an instruction, from its row of `opcode_table.json`. -/
def encode : Instr → FrameWord
  | .enrollStart uid level => rowWord 0x01#8 (uid ++ level ++ 0x00#8)
  | .enrollIntermediate uid level => rowWord 0x02#8 (uid ++ level ++ 0x00#8)
  | .enrollEnd uid level => rowWord 0x03#8 (uid ++ level ++ 0x00#8)
  | .removeOne uid => rowWord 0x04#8 (uid ++ 0x0000#16)
  | .removeAll => rowWord 0x05#8 0x00000000#32
  | .getUserCount => rowWord 0x09#8 0x00000000#32
  | .getUserLevel uid => rowWord 0x0A#8 (uid ++ 0x0000#16)
  | .compareOne uid => rowWord 0x0B#8 (uid ++ 0x0000#16)
  | .authenticate => rowWord 0x0C#8 0x00000000#32
  | .setBaudRate new => rowWord 0x21#8 (0x0000#16 ++ new ++ 0x00#8)
  | .setCompareLevel lvl => rowWord 0x28#8 (0x00#8 ++ lvl ++ 0x01#8 ++ 0x00#8)
  | .sleep => rowWord 0x2C#8 0x00000000#32
  | .getNextAvailableId lo hi => rowWord 0x47#8 (lo ++ hi)
  | .rawExch cmd params => rowWord cmd params
  | .rawSend cmd params => rowWord cmd params

/-- The command-port fields that present an instruction (R49, R50), every unused field zero. -/
def encodeCommand (i : Instr) : Command :=
  let c : Command := ⟨i.tag.code, 0#16, 0#16, 0#8, 0#8, 0#8, 0#32⟩
  match i with
  | .enrollStart uid level => { c with a16 := uid, s8 := 0x01#8, v8 := level }
  | .enrollIntermediate uid level => { c with a16 := uid, s8 := 0x02#8, v8 := level }
  | .enrollEnd uid level => { c with a16 := uid, s8 := 0x03#8, v8 := level }
  | .removeOne uid => { c with a16 := uid }
  | .removeAll => c
  | .getUserCount => c
  | .getUserLevel uid => { c with a16 := uid }
  | .compareOne uid => { c with a16 := uid }
  | .authenticate => c
  | .setBaudRate new => { c with v8 := new }
  | .setCompareLevel lvl => { c with v8 := lvl }
  | .sleep => c
  | .getNextAvailableId lo hi => { c with a16 := lo, b16 := hi }
  | .rawExch cmd params => { c with rc8 := cmd, rp32 := params }
  | .rawSend cmd params => { c with rc8 := cmd, rp32 := params }

/-- The instruction of a word of `opcode_table.json`, bits numbered as the table numbers them: the frame of
R47, byte 0 in bits 63:56. -/
def decodeTableWord (nbits w : Nat) : Option Instr :=
  if nbits ≤ 64 ∧ w < 2 ^ 64 then
    match decodeFrame (BitVec.ofNat 64 w) with
    | .ok i => some i
    | .error _ => none
  else none

end Sys2Proof
end

