-- ==== Sys2Proof/Machine/Flags.lean ====
section
/-! DEFINITION. The block has no condition flags (`10_state.md` R21); its status is the result kind, the ack
byte and the raw reply. Here is every computation of them: the classification of an ack byte
(`42_operations.md` R83), the reply decoders of R85 to R97, the choice among them by op tag
(`41_dispatcher.md` R76), and the mapping of a result onto the source's own types (R9, R88 to R98). -/

namespace Sys2Proof.Machine

/-- `AckDecode`, total on bytes (R83). -/
def ackDecode (b : Byte) : AckCode :=
  match b.toNat with
  | 0x00 => .success
  | 0x01 => .fail
  | 0x04 => .full
  | 0x05 => .noUser
  | 0x06 => .userOccupied
  | 0x07 => .userExist
  | 0x08 => .timeout
  | 0x09 => .tryAgain
  | _ => .other b

/-- The ack-valued operations (R88, R89, R90, R92, R95): `Result(ACK, r3, 0, r)`. -/
def decodeAck (r : ReplyWord) : Result := ⟨.ack, replyAck r, 0#16, r⟩

/-- `GET_USER_COUNT` (R91): the count whatever `r3` holds. -/
def decodeCount (r : ReplyWord) : Result := ⟨.count, 0x00#8, replyVal16 r, r⟩

/-- `AUTHENTICATE` (R93). -/
def decodeAuth (r : ReplyWord) : Result :=
  let a := replyAck r
  if a = 0x05#8 ∨ a = 0x08#8 then ⟨.authFail, 0x00#8, 0#16, r⟩
  else if a = 1#8 ∨ a = 2#8 ∨ a = 3#8 then ⟨.authMatch, a, replyVal16 r, r⟩
  else ⟨.authOther, a, replyVal16 r, r⟩

/-- `GET_USER_LEVEL`: `LevelDecode(r3)` (R85, R94). -/
def decodeLevel (r : ReplyWord) : Result :=
  let a := replyAck r
  if a = 0x05#8 then ⟨.levelFail, 0x00#8, 0#16, r⟩
  else if a = 1#8 ∨ a = 2#8 ∨ a = 3#8 then ⟨.level, a, 0#16, r⟩
  else ⟨.levelOther, a, 0#16, r⟩

/-- `SET_BAUD_RATE`: `BaudDecode(r3)` (R86, R96). -/
def decodeBaud (r : ReplyWord) : Result :=
  let a := replyAck r
  if a = 1#8 ∨ a = 2#8 ∨ a = 3#8 ∨ a = 4#8 ∨ a = 5#8 then ⟨.baud, a, 0#16, r⟩
  else ⟨.baudOther, a, 0#16, r⟩

/-- `GET_NEXT_AVAILABLE_ID` (R97). -/
def decodeNextId (r : ReplyWord) : Result :=
  let a := replyAck r
  if a = 0x05#8 ∨ a = 0x01#8 then ⟨.idNone, 0x00#8, 0#16, r⟩
  else ⟨.id, 0x00#8, replyVal16 r, r⟩

/-- `RAW_EXCH` (R79): no interpretation. -/
def decodeRaw (r : ReplyWord) : Result := ⟨.raw, 0x00#8, 0#16, r⟩

/-- `Decode(op_q, rbuf)` (R76); the two send-only operations have no decode rule. -/
def decodeReply (op : OpTag) (r : ReplyWord) : Option Result :=
  match op with
  | .rawExch => some (decodeRaw r)
  | .rawSend => none
  | .enroll => some (decodeAck r)
  | .removeOne => some (decodeAck r)
  | .removeAll => some (decodeAck r)
  | .getUserCount => some (decodeCount r)
  | .compareOne => some (decodeAck r)
  | .authenticate => some (decodeAuth r)
  | .getUserLevel => some (decodeLevel r)
  | .setCompareLevel => some (decodeAck r)
  | .setBaudRate => some (decodeBaud r)
  | .getNextAvailableId => some (decodeNextId r)
  | .sleep => none

/-- The result of a send that succeeded, and of `SLEEP` always (R52, R71, R72). -/
def resultSent : Result := ⟨.sent, 0x00#8, 0#16, 0#40⟩

/-- A TransportError result: the cause, and zeros (R102). -/
def resultTransportError (c : Cause) : Result := ⟨.transportError, c.code, 0#16, 0#40⟩

/-- An ArgRefused result: the code, and zeros (R104). -/
def resultRefused (c : RefuseCode) : Result := ⟨.argRefused, c.code, 0#16, 0#40⟩

/-- The values the source's software returns (R9, R10; the "source projection" of R88 to R98). -/
inductive SourceValue where
  /-- An AckCode from the device. -/
  | ack (a : AckCode)
  /-- The source's TransportError, where the operation surfaces it as such. -/
  | transportError
  /-- A count or an id, or its negative sentinel. -/
  | int (i : Int)
  /-- `AuthResult` (R10). -/
  | auth (level : UserLevel) (userId : Word16)
  /-- A UserLevel. -/
  | level (l : UserLevel)
  /-- A BaudRate. -/
  | baud (b : BaudRate)
  /-- The five raw reply bytes of `exchange`. -/
  | reply (r : ReplyWord)
  /-- No value returned. -/
  | nothing
  deriving DecidableEq, Repr

/-- What TransportError projects to, per operation (R88 to R98, R79, R80). -/
def projectTransportError (op : OpTag) : SourceValue :=
  match op with
  | .getUserCount => .int (-1)
  | .getNextAvailableId => .int (-1)
  | .getUserLevel => .level .fail
  | .setBaudRate => .baud .unknown
  | _ => .transportError

/-- The source projection of a result of operation `op` (R88 to R98). `none` where the source has no value:
the three `..._OTHER` kinds (`93_implementation_defined.md` I23), a refusal, and kinds `op` never produces. -/
def project (op : OpTag) (r : Result) : Option SourceValue :=
  match r.kind with
  | .ack => some (.ack (ackDecode r.aux))
  | .count => some (.int r.value.toNat)
  | .authMatch => (userLevelOfByte r.aux).map (fun l => .auth l r.value)
  | .authFail => some (.auth .fail 0#16)
  | .authOther => none
  | .level => (userLevelOfByte r.aux).map .level
  | .levelFail => some (.level .fail)
  | .levelOther => none
  | .baud => (baudRateOfByte r.aux).map .baud
  | .baudOther => none
  | .id => some (.int r.value.toNat)
  | .idNone => some (.int (-2))
  | .sent => some .nothing
  | .raw => some (.reply r.reply)
  | .transportError => if op = .sleep then none else some (projectTransportError op)
  | .argRefused => none

end Sys2Proof.Machine
end

