-- ==== Sys2Proof/Machine/State.lean ====
section
/-! DEFINITION. The state of the machine as plain data: the block's registers (`10_state.md` R11), the
Transport's streams and clock (R22, `20_memory.md` R26, R27, R35), what the host has observed
(`92_eei_decisions.md` D24), the open parameters, and the schedule of the environment's coming events. -/

namespace Sys2Proof.Machine

/-- The machine. -/
structure State where
  /-- `state`: the Dispatcher FSM state (R11, R12). -/
  fsm : Fsm
  /-- `op_q`: the op tag of the accepted command, reserved ones too (R11, R13). -/
  opQ : BitVec 4
  /-- `frame`: the frame to transmit (R11, R14). -/
  frame : FrameWord
  /-- `rbuf`: the reply bytes of the last full read (R11, R16). -/
  rbuf : ReplyWord
  /-- `res_kind`, `res_aux`, `res_value`, `res_reply` (R11, R17). -/
  res : Result
  /-- The TX stream, oldest byte first (R22, R26). -/
  tx : List Byte
  /-- The RX stream: bytes no read has consumed, oldest first (R22, R27, R40). -/
  rx : List Byte
  /-- The time, in milliseconds (R35). -/
  now : Nat
  /-- When the outstanding read times out, `t0 + READ_TIMEOUT` (R35); of use only in `READ`. -/
  readDeadline : Nat
  /-- The Transport's baud rate, which only its setup collaborator changes (R119, R125): one of the five with a code,
  or none of them. The spec does not say which values it can take (DESIGN CHOICE, log entry 23). -/
  transportBaud : Option Rate
  /-- The completion standing on the Transport port; quiet between steps (log entry 3). -/
  port : PortSignal
  /-- The results the host has taken, in order (D24). -/
  taken : List Result
  /-- What the host last read off the result port without taking it (R24). -/
  sampled : Option Result
  /-- `READ_TIMEOUT` and `INITIAL_DEVICE_BAUD` (R5); no step writes them. -/
  params : Config.Params
  /-- The environment's coming events, the next one first (R66; log entry 1). -/
  script : List Event
  deriving DecidableEq, Repr

/-- Why the machine stops with a fault. -/
inductive Fault where
  /-- The host reads the result registers while `res_valid = 0`; raised by the `sample` event alone.
  Safe: R24 gives such a read no value. -/
  | resultNotValid
  deriving DecidableEq, Repr

/-- Why a step has no meaning. -/
inductive Refusal where
  /-- An instruction without a meaning yet; raised by no arm of `exec`. Safe. -/
  | notModelled (mnemonic : String)
  /-- Another agent uses the block's Transport; raised by the `foreign` event alone. Safe: R122 says a
  model refuses such a run. -/
  | foreignTransportUse
  deriving DecidableEq, Repr

/-- The machine right after reset (R23, R116), both streams empty, nothing scheduled, the parameters at
their reference values (log entries 4, 5 and 6). -/
def State.reset : State :=
  { fsm := .idle, opQ := 0x0#4, frame := 0#64, rbuf := 0#40, res := Result.zero,
    tx := [], rx := [], now := 0, readDeadline := 0, transportBaud := some .b19200, port := .quiet,
    taken := [], sampled := none, params := Config.reference, script := [] }

end Sys2Proof.Machine
end

