-- ==== Sys2Proof/Machine/Ops.lean ====
section
/-! DEFINITION. The named operations over the registers: accepting a command (`41_dispatcher.md` R67 to
R69), entering a result, plain or an error (R106), completing a write (R70 to R72) and a read (R74, R75),
the return from a result (R77, R107), reset of the block (`70_reset_and_hazards.md` R116); and over them the
two shapes an operation has, `exchange` and `sendOnly` (R66). -/

namespace Sys2Proof.Machine

/-- `cmd_ready` (R18). -/
def State.cmdReady (s : State) : Bool := s.fsm = .idle

/-- `res_valid` (R18). -/
def State.resValid (s : State) : Bool := s.fsm = .done

/-- `expects_reply(op_q)` (R15): false for a reserved tag, of which R15 says nothing and which never waits. -/
def expectsReply (op : BitVec 4) : Bool :=
  match opTagOfCode op with
  | some t => t.expectsReply
  | none => false

/-- What the host sees on the result port: nothing while `res_valid = 0` (R24, R51). -/
def resultPort (s : State) : Option Result := if s.resValid then some s.res else none

/-- `emit Result(...)`: the four result registers, and the transition into `DONE` (R8, R17). -/
def emit (r : Result) (s : State) : State := { s with fsm := .done, res := r }

/-- `raise TransportError(cause)` (R8, R102, R106). -/
def raiseTransportError (c : Cause) (s : State) : State := emit (resultTransportError c) s

/-- T2: the refusal of a command. It writes `op_q` and the result registers, nothing else (R68). -/
def refuse (op : BitVec 4) (c : RefuseCode) (s : State) : State :=
  emit (resultRefused c) { s with opQ := op }

/-- T1: `op_q` and `frame` written, and `TxWrite(frame)` issued by entering `WRITE` (R67, R69). -/
def accept (op : OpTag) (p : Payload) (s : State) : State :=
  { s with opQ := op.code, frame := frameEncode p, fsm := .write }

/-- The accept event, its argument check done (R66 T1 and T2). -/
def acceptChecked (op : OpTag) (check : Option RefuseCode) (p : Payload) (s : State) : State :=
  match check with
  | none => accept op p s
  | some c => refuse op.code c s

/-- `RxRead(5, READ_TIMEOUT)` issued by entering `READ`; its deadline runs from now (R73, R35). -/
def issueRead (s : State) : State :=
  { s with fsm := .read, readDeadline := s.now + s.params.readTimeout }

/-- The block takes the completion off the Transport port. -/
def clearPort (s : State) : State := { s with port := .quiet }

/-- R70: the write of an operation that awaits a reply completes. -/
def writeDoneExchange (w : WriteResult) (s : State) : State :=
  match w with
  | .ok n => if n.val = 8 then issueRead s else raiseTransportError .writeShort s
  | .err => raiseTransportError .writeErr s

/-- R71: the write of `RAW_SEND` completes. -/
def writeDoneRawSend (w : WriteResult) (s : State) : State :=
  match w with
  | .ok n => if n.val = 8 then emit resultSent s else raiseTransportError .writeShort s
  | .err => raiseTransportError .writeErr s

/-- R72: the write of `SLEEP` completes; its result is not looked at. -/
def writeDoneSleep (_w : WriteResult) (s : State) : State := emit resultSent s

/-- R74 and R76: a full reply goes to `rbuf` and is decoded. -/
def readFull (decode : ReplyWord → Result) (r : ReplyWord) (s : State) : State :=
  emit (decode r) { s with rbuf := r }

/-- R74 and R75: the read completes. -/
def readDone (decode : ReplyWord → Result) (r : ReadResult) (s : State) : State :=
  match r with
  | .ok (r0 :: r1 :: r2 :: r3 :: r4 :: _) => readFull decode (packReply r0 r1 r2 r3 r4) s
  | .ok [] => raiseTransportError .readTimeout s
  | .ok _ => raiseTransportError .readShort s
  | .err => raiseTransportError .readErr s

/-- An operation that awaits a reply, one transition from where it stands: acceptance in `IDLE` (T1, T2), the
write's completion in `WRITE` (T3, T4), the read's in `READ` (T7, T8). Without a completion on the port, and
in `DONE`, the operation waits (R66, R82). -/
def exchange (op : OpTag) (check : Option RefuseCode) (p : Payload) (decode : ReplyWord → Result)
    (s : State) : Host.Outcome State Fault Refusal :=
  match s.fsm with
  | .idle => .next (acceptChecked op check p s)
  | .write =>
    match s.port with
    | .wrote w => .next (writeDoneExchange w (clearPort s))
    | _ => .next s
  | .read =>
    match s.port with
    | .got r => .next (readDone decode r (clearPort s))
    | _ => .next s
  | .done => .next s

/-- A send-only operation (T1, T5, T6): it never reads. -/
def sendOnly (op : OpTag) (p : Payload) (writeDone : WriteResult → State → State) (s : State) :
    Host.Outcome State Fault Refusal :=
  match s.fsm with
  | .idle => .next (accept op p s)
  | .write =>
    match s.port with
    | .wrote w => .next (writeDone w (clearPort s))
    | _ => .next s
  | .read => .next s
  | .done => .next s

/-- T9: the host takes the result; the result registers keep their values (R77). -/
def takeResult (s : State) : State := { s with fsm := .idle, taken := s.taken ++ [s.res] }

/-- T10, the block's side: every register at its reset value, and nothing on the Transport port (R116). -/
def resetRegisters (s : State) : State :=
  { s with fsm := .idle, opQ := 0x0#4, frame := 0#64, rbuf := 0#40, res := Result.zero, port := .quiet }

end Sys2Proof.Machine
end

