-- ==== Sys2Proof/Machine/Enroll.lean ====
section
/-! DEFINITION. The meanings of ENROLL's three stages (`42_operations.md` R88). -/

namespace Sys2Proof.Machine

/-- ENROLL, stage First (R60, R88). -/
def execEnrollStart (uid : Word16) (level : Byte) (s : State) : Host.Outcome State Fault Refusal :=
  exchange .enroll (checkLevel level) (payloadEnroll .first uid level) decodeAck s

/-- ENROLL, stage Intermediate (R60, R88). -/
def execEnrollIntermediate (uid : Word16) (level : Byte) (s : State) :
    Host.Outcome State Fault Refusal :=
  exchange .enroll (checkLevel level) (payloadEnroll .intermediate uid level) decodeAck s

/-- ENROLL, stage Last (R60, R88). -/
def execEnrollEnd (uid : Word16) (level : Byte) (s : State) : Host.Outcome State Fault Refusal :=
  exchange .enroll (checkLevel level) (payloadEnroll .last uid level) decodeAck s

end Sys2Proof.Machine
end

