-- ==== Sys2Proof/Machine/Matching.lean ====
section
/-! DEFINITION. The meanings of the matching operations (`42_operations.md` R92, R93). -/

namespace Sys2Proof.Machine

/-- COMPARE_ONE (R92), opcode CompareUserId. -/
def execCompareOne (uid : Word16) (s : State) : Host.Outcome State Fault Refusal :=
  exchange .compareOne none (payloadUid 0x0B#8 uid) decodeAck s

/-- AUTHENTICATE (R93), opcode AuthUser. -/
def execAuthenticate (s : State) : Host.Outcome State Fault Refusal :=
  exchange .authenticate none (payloadBare 0x0C#8) decodeAuth s

end Sys2Proof.Machine
end

