-- ==== Sys2Proof/Machine/Raw.lean ====
section
/-! DEFINITION. The meanings of the two raw Dispatcher operations (`41_dispatcher.md` R79, R80). -/

namespace Sys2Proof.Machine

/-- RAW_EXCH (R79): any command byte, the reply uninterpreted. -/
def execRawExch (cmd : Byte) (params : ParamWord) (s : State) : Host.Outcome State Fault Refusal :=
  exchange .rawExch none (payloadRaw cmd params) decodeRaw s

/-- RAW_SEND (R80): any command byte, no reply awaited, a failed write reported. -/
def execRawSend (cmd : Byte) (params : ParamWord) (s : State) : Host.Outcome State Fault Refusal :=
  sendOnly .rawSend (payloadRaw cmd params) writeDoneRawSend s

end Sys2Proof.Machine
end

