-- ==== Sys2Proof/Machine/Settings.lean ====
section
/-! DEFINITION. The meanings of the operations on the device's settings and power (`42_operations.md` R95,
R96, R98). -/

namespace Sys2Proof.Machine

/-- SET_BAUD_RATE (R96), opcode SetBaudRate. The Transport's own rate is not touched (R125). -/
def execSetBaudRate (new : Byte) (s : State) : Host.Outcome State Fault Refusal :=
  exchange .setBaudRate (checkBaud new) (payloadBaud new) decodeBaud s

/-- SET_COMPARE_LEVEL (R95), opcode SetCompLevel. -/
def execSetCompareLevel (lvl : Byte) (s : State) : Host.Outcome State Fault Refusal :=
  exchange .setCompareLevel (checkCompareLevel lvl) (payloadCompareLevel lvl) decodeAck s

/-- SLEEP (R98), opcode Sleep: send-only, its write result ignored. -/
def execSleep (s : State) : Host.Outcome State Fault Refusal :=
  sendOnly .sleep (payloadBare 0x2C#8) writeDoneSleep s

end Sys2Proof.Machine
end

