-- ==== Sys2Proof/Machine/Users.lean ====
section
/-! DEFINITION. The meanings of the user-table operations: removing users, counting them, asking a user's
level and the next available id (`42_operations.md` R89, R90, R91, R94, R97). -/

namespace Sys2Proof.Machine

/-- REMOVE_ONE (R89), opcode DeleteUser. -/
def execRemoveOne (uid : Word16) (s : State) : Host.Outcome State Fault Refusal :=
  exchange .removeOne none (payloadUid 0x04#8 uid) decodeAck s

/-- REMOVE_ALL (R90), opcode DeleteAll. -/
def execRemoveAll (s : State) : Host.Outcome State Fault Refusal :=
  exchange .removeAll none (payloadBare 0x05#8) decodeAck s

/-- GET_USER_COUNT (R91), opcode UserAmount. -/
def execGetUserCount (s : State) : Host.Outcome State Fault Refusal :=
  exchange .getUserCount none (payloadBare 0x09#8) decodeCount s

/-- GET_USER_LEVEL (R94), opcode GetUserLevel. -/
def execGetUserLevel (uid : Word16) (s : State) : Host.Outcome State Fault Refusal :=
  exchange .getUserLevel none (payloadUid 0x0A#8 uid) decodeLevel s

/-- GET_NEXT_AVAILABLE_ID (R97), opcode GetAvailableUserId. -/
def execGetNextAvailableId (lo hi : Word16) (s : State) : Host.Outcome State Fault Refusal :=
  exchange .getNextAvailableId none (payloadRange lo hi) decodeNextId s

end Sys2Proof.Machine
end

