-- ==== Sys2Proof/Machine/Dispatch.lean ====
section
/-! DEFINITION. One transition of an instruction: one arm per constructor of `Instr`, each a call of its meaning. -/

namespace Sys2Proof.Machine

def exec (i : Instr) (s : State) : Host.Outcome State Fault Refusal :=
  match i with
  | .enrollStart uid level => Sys2Proof.Machine.execEnrollStart uid level s
  | .enrollIntermediate uid level => Sys2Proof.Machine.execEnrollIntermediate uid level s
  | .enrollEnd uid level => Sys2Proof.Machine.execEnrollEnd uid level s
  | .removeOne uid => Sys2Proof.Machine.execRemoveOne uid s
  | .removeAll => Sys2Proof.Machine.execRemoveAll s
  | .getUserCount => Sys2Proof.Machine.execGetUserCount s
  | .getUserLevel uid => Sys2Proof.Machine.execGetUserLevel uid s
  | .compareOne uid => Sys2Proof.Machine.execCompareOne uid s
  | .authenticate => Sys2Proof.Machine.execAuthenticate s
  | .setBaudRate new => Sys2Proof.Machine.execSetBaudRate new s
  | .setCompareLevel lvl => Sys2Proof.Machine.execSetCompareLevel lvl s
  | .sleep => Sys2Proof.Machine.execSleep s
  | .getNextAvailableId lo hi => Sys2Proof.Machine.execGetNextAvailableId lo hi s
  | .rawExch cmd params => Sys2Proof.Machine.execRawExch cmd params s
  | .rawSend cmd params => Sys2Proof.Machine.execRawSend cmd params s

end Sys2Proof.Machine
end

