-- ==== Sys2Proof/Machine/Transport.lean ====
section
/-! DEFINITION. The Transport and the Device as the block sees them: completing a write or a read on the
byte streams (`20_memory.md` R33, R34, R37), abandoning a request at reset (`70_reset_and_hazards.md` R117),
and the Device's only action (R27). -/

namespace Sys2Proof.Machine

/-- Put the first `k` bytes of `frame` on the TX stream, in index order (R28, R33). -/
def sendPrefix (k : Nat) (s : State) : State := { s with tx := s.tx ++ (frameBytes s.frame).take k }

/-- Remove the first `j` bytes of the RX stream, all of them if it holds fewer (R34, R37). -/
def dropReceived (j : Nat) (s : State) : State := { s with rx := s.rx.drop j }

/-- The write completes with `Ok(n)` (R33). Its bytes join the TX stream at the completion, none of them while the write
is outstanding: R33 does not say where they stand until then (DESIGN CHOICE, log entry 22). -/
def finishWriteOk (n : Fin 9) (s : State) : State :=
  { sendPrefix n.val s with port := .wrote (.ok n) }

/-- The write completes with `Err` after a prefix of `k` bytes; the block does not learn `k` (R33). -/
def finishWriteErr (k : Fin 9) (s : State) : State :=
  { sendPrefix k.val s with port := .wrote .err }

/-- When a read that returns now returns: a short one only once its deadline has come (R35, log entry 7). -/
def returnTime (s : State) : Nat := if s.rx.length < 5 then max s.now s.readDeadline else s.now

/-- The read completes without an error (R34): with the first 5 bytes of the RX stream, or, the timeout having
expired, with all of the fewer than 5 it holds. -/
def finishRead (s : State) : State :=
  { dropReceived 5 s with now := returnTime s, port := .got (.ok (s.rx.take 5)) }

/-- The read completes with `Err`, `j` bytes discarded; the block does not learn `j` (R37). -/
def finishReadErr (j : Fin 6) (s : State) : State := { dropReceived j.val s with port := .got .err }

/-- The Device appends bytes to the RX stream, at any time (R27). -/
def deviceAppend (bytes : List Byte) (s : State) : State := { s with rx := s.rx ++ bytes }

/-- What reset does to an outstanding request (R117): an abandoned write has put a prefix out, an abandoned read
has removed up to 4 bytes; otherwise the streams are left alone (R118). -/
def abandonRequest (k : Fin 9) (j : Fin 5) (s : State) : State :=
  match s.fsm with
  | .write => sendPrefix k.val s
  | .read => dropReceived j.val s
  | .idle => s
  | .done => s

/-- Reset (R116, R117). -/
def resetMachine (k : Fin 9) (j : Fin 5) (s : State) : State := resetRegisters (abandonRequest k j s)

end Sys2Proof.Machine
end

