-- ==== Sys2Proof/Machine/Events.lean ====
section
/-! DEFINITION. What each event of the environment does (`41_dispatcher.md` R66): the instruction in flight,
read from `op_q` and `frame`, the delivery of a completion to it, and every event in every state. -/

namespace Sys2Proof.Machine

/-- The instruction in flight: the operation of `op_q` (R13) with the operands its `frame` carries (R14, R53).
The completion rules R70 to R76 depend on `op_q` alone. None for a reserved tag, which is never in flight. -/
def inFlight (s : State) : Option Instr :=
  let cmd := frameByte s.frame 1
  let p : ParamWord := s.frame.extractLsb' 16 32
  let uid : Word16 := p.extractLsb' 16 16
  match opTagOfCode s.opQ with
  | none => none
  | some .rawExch => some (.rawExch cmd p)
  | some .rawSend => some (.rawSend cmd p)
  | some .enroll => some (enrollInstr ((stageOfByte cmd).getD .first) uid (paramByte p 2))
  | some .removeOne => some (.removeOne uid)
  | some .removeAll => some .removeAll
  | some .getUserCount => some .getUserCount
  | some .compareOne => some (.compareOne uid)
  | some .authenticate => some .authenticate
  | some .getUserLevel => some (.getUserLevel uid)
  | some .setCompareLevel => some (.setCompareLevel (paramByte p 1))
  | some .setBaudRate => some (.setBaudRate (paramByte p 2))
  | some .getNextAvailableId => some (.getNextAvailableId uid (p.extractLsb' 0 16))
  | some .sleep => some .sleep

/-- The completion on the port reaches the instruction in flight. With a reserved tag in `op_q`, which no run
has (R76), R66 lists no transition, and the block does nothing (log entry 8). -/
def deliver (s : State) : Host.Outcome State Fault Refusal :=
  match inFlight s with
  | some i => exec i s
  | none => .next (clearPort s)

/-- A command on the command port (R48, R67): accepted in `IDLE`, without effect elsewhere. -/
def presentCommand (c : Command) (s : State) : Host.Outcome State Fault Refusal :=
  match s.fsm with
  | .idle =>
    match decodeCommand c with
    | .ok i => exec i s
    | .error code => .next (refuse c.op code s)
  | _ => .next s

/-- Let `dt` pass. An outstanding read lets no time pass once it can complete: with 5 bytes it completes at once,
and with fewer it completes at its deadline (R35); what is left of `dt` passes after that. -/
def passTime (dt : Nat) (s : State) : Host.Outcome State Fault Refusal :=
  if s.fsm = .read ∧ 5 ≤ s.rx.length ∧ 0 < dt then
    deliver (finishRead { s with script := .elapse dt :: s.script })
  else if s.fsm = .read ∧ s.rx.length < 5 ∧ s.readDeadline < s.now + dt then
    deliver (finishRead
      { s with script := .elapse (s.now + dt - max s.now s.readDeadline) :: s.script })
  else .next { s with now := s.now + dt }

/-- One event (R66). An event not listed for the current state has no effect on the block; a completion with no
request outstanding is ignored (R78). -/
def handle (e : Event) (s : State) : Host.Outcome State Fault Refusal :=
  match e with
  | .present c => presentCommand c s
  | .take => if s.resValid then .next (takeResult s) else .next s
  | .sample =>
    match resultPort s with
    | some r => .next { s with sampled := some r }
    | none => .fault .resultNotValid
  | .writeOk n => if s.fsm = .write then deliver (finishWriteOk n s) else .next s
  | .writeErr k => if s.fsm = .write then deliver (finishWriteErr k s) else .next s
  | .readReturn => if s.fsm = .read then deliver (finishRead s) else .next s
  | .readErr j => if s.fsm = .read then deliver (finishReadErr j s) else .next s
  | .deviceSends bytes => .next (deviceAppend bytes s)
  | .elapse dt => passTime dt s
  | .configure rate => .next { s with transportBaud := rate }
  | .reset k j => .next (resetMachine k j s)
  | .foreign => .refused .foreignTransportUse

/-- The next event of the schedule, taken off it. With none left, the machine stays where it is
(`92_eei_decisions.md` D24). -/
def nextEvent (s : State) : Host.Outcome State Fault Refusal :=
  match s.script with
  | [] => .next s
  | e :: rest => handle e { s with script := rest }

/-- The schedule with the command of `i` next, and the block ready to accept it (log entry 9). -/
def placeInstr (i : Instr) (s : State) : State :=
  { s with fsm := .idle, script := .present (encodeCommand i) :: s.script }

end Sys2Proof.Machine
end

