-- ==== Sys2Proof/Machine/Step.lean ====
section
/-! DEFINITION. The step of the machine: the next event of the environment (`41_dispatcher.md` R66), and how an
instruction of the opcode table is put where the next step takes it from. -/

namespace Sys2Proof.Machine

/-- One step: one event, atomic (R66, R105). -/
def step (s : State) : Host.Outcome State Fault Refusal := nextEvent s

/-- `s` with the command of a table word as its next event (log entry 9); `s` itself for no instruction's word. -/
def State.withFetchWord (s : State) (nbits w : Nat) : State :=
  match decodeTableWord nbits w with
  | some i => placeInstr i s
  | none => s

end Sys2Proof.Machine
end

