-- ==== Sys2Proof/Safety.lean ====
section
/-! DEFINITION. What counts as a good state and a good run: how a run can end (`92_eei_decisions.md` D24), the
boot order (`70_reset_and_hazards.md` R121), which results an operation can have (`30_encoding.md` R52), the
invariant of the machine, and the orders simultaneous events may be taken in (`60_exceptions.md` R105). -/

namespace Sys2Proof

open Machine

/-- A run that ends here is complete: nothing is in progress (D24). -/
abbrev Safety.complete (s : State) : Prop := s.fsm = .idle

/-- A run that ends here is stuck, waiting for the Transport (R82, D24). -/
abbrev Safety.stuck (s : State) : Prop := s.fsm = .write ∨ s.fsm = .read

/-- A run that ends here holds an untaken result (D24). -/
abbrev Safety.holding (s : State) : Prop := s.fsm = .done

/-- Commands may be presented: the Transport runs at the device's rate and the block is out of reset, with
nothing in progress (R119 to R121). The block cannot check the first. -/
abbrev Safety.booted (s : State) : Prop :=
  s.transportBaud = some s.params.initialDeviceBaud ∧ s.fsm = .idle

/-- The ack-valued operations (R52, kind `ACK`). -/
def Safety.ackValued (op : OpTag) : Bool :=
  match op with
  | .enroll | .removeOne | .removeAll | .compareOne | .setCompareLevel => true
  | _ => false

/-- R52 line by line, for a result that an operation with a defined tag produced from the reply in `rbuf`. -/
def Safety.resultOfOp (op : OpTag) (rbuf : ReplyWord) (r : Result) : Bool :=
  match r.kind with
  | .ack => Safety.ackValued op && r.aux = replyAck rbuf && r.value = 0#16 && r.reply = rbuf
  | .count => op = .getUserCount && r.aux = 0#8 && r.value = replyVal16 rbuf && r.reply = rbuf
  | .authMatch =>
    op = .authenticate && r.aux = replyAck rbuf && r.aux ∈ [1#8, 2#8, 3#8] &&
      r.value = replyVal16 rbuf && r.reply = rbuf
  | .authFail =>
    op = .authenticate && replyAck rbuf ∈ [5#8, 8#8] && r.aux = 0#8 && r.value = 0#16 && r.reply = rbuf
  | .authOther =>
    op = .authenticate && r.aux = replyAck rbuf && r.aux ∉ [1#8, 2#8, 3#8, 5#8, 8#8] &&
      r.value = replyVal16 rbuf && r.reply = rbuf
  | .level =>
    op = .getUserLevel && r.aux = replyAck rbuf && r.aux ∈ [1#8, 2#8, 3#8] && r.value = 0#16 &&
      r.reply = rbuf
  | .levelFail =>
    op = .getUserLevel && replyAck rbuf = 5#8 && r.aux = 0#8 && r.value = 0#16 && r.reply = rbuf
  | .levelOther =>
    op = .getUserLevel && r.aux = replyAck rbuf && r.aux ∉ [1#8, 2#8, 3#8, 5#8] && r.value = 0#16 &&
      r.reply = rbuf
  | .baud =>
    op = .setBaudRate && r.aux = replyAck rbuf && r.aux ∈ [1#8, 2#8, 3#8, 4#8, 5#8] &&
      r.value = 0#16 && r.reply = rbuf
  | .baudOther =>
    op = .setBaudRate && r.aux = replyAck rbuf && r.aux ∉ [1#8, 2#8, 3#8, 4#8, 5#8] &&
      r.value = 0#16 && r.reply = rbuf
  | .id =>
    op = .getNextAvailableId && replyAck rbuf ∉ [1#8, 5#8] && r.aux = 0#8 &&
      r.value = replyVal16 rbuf && r.reply = rbuf
  | .idNone =>
    op = .getNextAvailableId && replyAck rbuf ∈ [1#8, 5#8] && r.aux = 0#8 && r.value = 0#16 &&
      r.reply = rbuf
  | .sent => (op = .sleep || op = .rawSend) && r.aux = 0#8 && r.value = 0#16 && r.reply = 0#40
  | .raw => op = .rawExch && r.aux = 0#8 && r.value = 0#16 && r.reply = rbuf
  | .transportError =>
    ((op ≠ .sleep && r.aux ∈ [1#8, 2#8]) || (op.expectsReply && r.aux ∈ [3#8, 4#8, 5#8])) &&
      r.value = 0#16 && r.reply = 0#40
  | .argRefused =>
    ((op = .enroll && r.aux ∈ [2#8, 3#8]) || (op = .setCompareLevel && r.aux = 4#8) ||
      (op = .setBaudRate && r.aux = 5#8)) && r.value = 0#16 && r.reply = 0#40

/-- A held result is one that the op tag in `op_q` can have (R52, R102, R104). -/
def Safety.resultFits (op : BitVec 4) (rbuf : ReplyWord) (r : Result) : Bool :=
  match opTagOfCode op with
  | some t => Safety.resultOfOp t rbuf r
  | none => r = resultRefused .reservedOp

/-- The registers hold a command that passed its check, and `frame` is that command's frame (R14). -/
def Safety.commandHeld (s : State) : Bool :=
  match inFlight s with
  | some i => i.wellFormed && s.frame = encode i
  | none => false

/-- The invariant of the machine. The Transport port is quiet between steps; while a request is outstanding the
registers hold the command it belongs to; a read is outstanding only for an operation that awaits a reply, and
its deadline has not passed (R35); a held result is one its operation can have. -/
abbrev Safety.Inv (s : State) : Prop :=
  s.port = .quiet ∧
  (s.fsm = .write → Safety.commandHeld s = true) ∧
  (s.fsm = .read → Safety.commandHeld s = true ∧ expectsReply s.opQ = true ∧
    s.now ≤ s.readDeadline ∧ s.readDeadline ≤ s.now + s.params.readTimeout) ∧
  (s.fsm = .done → Safety.resultFits s.opQ s.rbuf s.res = true)

/-- Is the event a reset? -/
def Safety.isReset : Event → Bool
  | .reset _ _ => true
  | _ => false

/-- Is the event an append by the Device? -/
def Safety.isAppend : Event → Bool
  | .deviceSends _ => true
  | _ => false

/-- The schedules that stand for two events coinciding (R105 items 4 and 5): either order, except that reset is
followed by nothing of the other event unless that is a Device append, which stays. -/
def Safety.coincident (a b : Event) : List (List Event) :=
  if Safety.isReset a && !Safety.isAppend b then [[a]]
  else if Safety.isReset b && !Safety.isAppend a then [[b]]
  else [[a, b], [b, a]]

end Sys2Proof
end

