-- ==== Sys2Proof/Certificates/Slice0/Obligations.lean ====
section
/-! DEFINITION. The statements for the provers, each from numbered rules of the spec, and before them the shapes
several of them share, written out from the rules' own words. In them `port` is the model's form of the completion
the Transport gives (log entry 3), and `readDeadline` of `t0 + READ_TIMEOUT` (log entry 7). -/

namespace Sys2Proof.Claims

open Machine

/-- A result as R52 lays it out: kind, aux, value, reply. -/
abbrev res (kind : ResKind) (aux : Byte) (value : Word16) (reply : ReplyWord) : Result :=
  ⟨kind, aux, value, reply⟩

/-- T1: in `IDLE`, the command is accepted: `op_q` holds `op`, `frame` the eight bytes, `WRITE` is entered, and
nothing else changes (R67, R69). -/
def acceptsWith (i : Instr) (op : BitVec 4) (b0 b1 b2 b3 b4 b5 b6 b7 : Byte) : Prop :=
  ∀ s : State, s.fsm = .idle →
    exec i s = .next { s with opQ := op, frame := packFrame b0 b1 b2 b3 b4 b5 b6 b7, fsm := .write }

/-- T2: in `IDLE`, the command is refused with `code`: nothing is sent, `frame` is not written (R68, R104). -/
def refusesWith (i : Instr) (op : BitVec 4) (code : Byte) : Prop :=
  ∀ s : State, s.fsm = .idle →
    exec i s = .next { s with opQ := op, res := res .argRefused code 0 0, fsm := .done }

/-- T3 and T4: the write completes (R70): a full one leads to the read, whose timeout starts now, a short one to
cause 0x02, a failed one to cause 0x01. -/
def readsAfterWrite (i : Instr) : Prop :=
  ∀ s : State, s.fsm = .write →
    (s.port = .wrote (.ok 8) →
      exec i s = .next
        { s with fsm := .read, readDeadline := s.now + s.params.readTimeout, port := .quiet }) ∧
    (∀ n : Fin 9, n.val < 8 → s.port = .wrote (.ok n) →
      exec i s = .next { s with fsm := .done, res := res .transportError 0x02 0 0, port := .quiet }) ∧
    (s.port = .wrote .err →
      exec i s = .next { s with fsm := .done, res := res .transportError 0x01 0 0, port := .quiet })

/-- T7: a full reply goes to `rbuf` and gives the result `decode` makes of its bytes (R74, R76). -/
def decodesReply (i : Instr) (decode : Byte → Byte → Byte → Byte → Byte → Result) : Prop :=
  ∀ (s : State) (r0 r1 r2 r3 r4 : Byte), s.fsm = .read → s.port = .got (.ok [r0, r1, r2, r3, r4]) →
    exec i s = .next { s with rbuf := packReply r0 r1 r2 r3 r4, res := decode r0 r1 r2 r3 r4, fsm := .done,
                              port := .quiet }

/-- T8: a read that brought no byte gives cause 0x04, one that brought 1 to 4 bytes 0x05, a failed one 0x03, and
`rbuf` is not written (R75). -/
def failsRead (i : Instr) : Prop :=
  ∀ s : State, s.fsm = .read →
    (s.port = .got (.ok []) →
      exec i s = .next { s with fsm := .done, res := res .transportError 0x04 0 0, port := .quiet }) ∧
    (∀ bs : List Byte, 1 ≤ bs.length → bs.length ≤ 4 → s.port = .got (.ok bs) →
      exec i s = .next { s with fsm := .done, res := res .transportError 0x05 0 0, port := .quiet }) ∧
    (s.port = .got .err →
      exec i s = .next { s with fsm := .done, res := res .transportError 0x03 0 0, port := .quiet })

/-- An operation that awaits a reply and whose arguments always pass: accepted with its frame, then the write, then
the read with its decoder. -/
def operation (i : Instr) (op : BitVec 4) (b1 b2 b3 b4 b5 b6 : Byte)
    (decode : Byte → Byte → Byte → Byte → Byte → Result) : Prop :=
  acceptsWith i op 0xF5 b1 b2 b3 b4 b5 b6 0xF5 ∧ readsAfterWrite i ∧ decodesReply i decode ∧ failsRead i

/-- TransportError of `op`, whatever its cause, projects to `v`. -/
def errorProjects (op : OpTag) (v : SourceValue) : Prop :=
  ∀ cause : Byte, project op (res .transportError cause 0 0) = some v

/-- The state a step starts from: the next event of `s` is `e`, with `rest` after it. -/
abbrev comesNext (s : State) (e : Event) (rest : List Event) : Prop := s.script = e :: rest

/-- Reset with the draws `k` and `j`: the block's registers at their reset values, the Transport port quiet, a prefix of
the frame of an abandoned write on the TX stream, up to `j` bytes of an abandoned read off the RX stream, and
everything else as it was (R116, R117, R118). -/
def resetOf (k : Fin 9) (j : Fin 5) (s : State) : State :=
  { s with
    fsm := .idle, opQ := 0x0, frame := 0, rbuf := 0, res := res .ack 0 0 0, port := .quiet,
    tx := if s.fsm = .write then s.tx ++ (frameBytes s.frame).take k else s.tx,
    rx := if s.fsm = .read then s.rx.drop (min j s.rx.length) else s.rx }

/-- While a read is outstanding, letting `dt` pass completes it: 5 bytes are there, or its deadline comes within `dt`
(R35; time passing in pieces is the model's, log entry 7). -/
abbrev elapseCompletes (s : State) (dt : Nat) : Prop :=
  (5 ≤ s.rx.length ∧ 0 < dt) ∨ (s.rx.length < 5 ∧ s.readDeadline < s.now + dt)

/-- The kind, aux and value of a result: what R84 says `r0` and `r4` do not reach. -/
def seen (r : Result) : ResKind × Byte × Word16 := (r.kind, r.aux, r.value)

/-- The FSM state R66 gives after event `e` in state `s`, for an `op_q` with a defined tag. The row of `READ` and the
passing of time is no row of R66: it is R35 in the model's pieces of time (log entry 7). -/
def nextFsm (s : State) (e : Event) : Fsm :=
  match s.fsm, e with
  | .idle, .present c => if argCheck c = none then .write else .done
  | .write, .writeOk n => if expectsReply s.opQ ∧ n.val = 8 then .read else .done
  | .write, .writeErr _ => .done
  | .read, .readReturn => .done
  | .read, .readErr _ => .done
  | .read, .elapse dt => if elapseCompletes s dt then .done else .read
  | .done, .take => .idle
  | _, .reset _ _ => .idle
  | f, _ => f

end Sys2Proof.Claims

open Sys2Proof Sys2Proof.Machine Sys2Proof.Claims

/-! ## The FrameCodec and the encodings -/

/-- R62: the eight bytes of `Encode(cmd, p)`, its corner cases and the source's example. -/
def Obligations.EncodeBuildsTheFrame : Prop :=
  (∀ cmd p0 p1 p2 p3 : Byte,
    frameBytes (frameEncode ⟨cmd, p0, p1, p2, p3⟩) =
      [0xF5, cmd, p0, p1, p2, p3, cmd ^^^ p0 ^^^ p1 ^^^ p2 ^^^ p3, 0xF5] ∧
    frameEncode ⟨cmd, p0, p1, p2, p3⟩ =
      packFrame 0xF5 cmd p0 p1 p2 p3 (cmd ^^^ p0 ^^^ p1 ^^^ p2 ^^^ p3) 0xF5) ∧
  frameEncode ⟨0, 0, 0, 0, 0⟩ = 0xF5000000000000F5#64 ∧
  frameEncode ⟨0xF5, 0xF5, 0xF5, 0xF5, 0xF5⟩ = 0xF5F5F5F5F5F5F5F5#64 ∧
  (∀ c x : Byte, checksum ⟨c, x, x, 0, 0⟩ = checksum ⟨c, 0, 0, 0, 0⟩) ∧
  frameEncode ⟨0x01, 0x00, 0x01, 0x01, 0x00⟩ = 0xF5010001010001F5#64

/-- R63, its five laws; law 4 flips bit `i` of one payload byte, law 5 flips the bits of `m` in an even number of
them, or permutes them. -/
def Obligations.ChecksumLaws : Prop :=
  (∀ cmd p0 p1 p2 p3 : Byte, let f := frameEncode ⟨cmd, p0, p1, p2, p3⟩
    frameByte f 0 = 0xF5 ∧ frameByte f 7 = 0xF5 ∧ (frameBytes f).length = 8 ∧
    frameByte f 6 = cmd ^^^ p0 ^^^ p1 ^^^ p2 ^^^ p3 ∧
    xorfold [frameByte f 1, frameByte f 2, frameByte f 3, frameByte f 4, frameByte f 5, frameByte f 6] = 0x00 ∧
    xorfold (frameBytes f) = 0x00 ∧
    (∀ i : Nat, i < 8 → let b : Byte := 1#8 <<< i
      frameByte (frameEncode ⟨cmd ^^^ b, p0, p1, p2, p3⟩) 6 = frameByte f 6 ^^^ b ∧
      frameByte (frameEncode ⟨cmd, p0 ^^^ b, p1, p2, p3⟩) 6 = frameByte f 6 ^^^ b ∧
      frameByte (frameEncode ⟨cmd, p0, p1 ^^^ b, p2, p3⟩) 6 = frameByte f 6 ^^^ b ∧
      frameByte (frameEncode ⟨cmd, p0, p1, p2 ^^^ b, p3⟩) 6 = frameByte f 6 ^^^ b ∧
      frameByte (frameEncode ⟨cmd, p0, p1, p2, p3 ^^^ b⟩) 6 = frameByte f 6 ^^^ b)) ∧
  (∀ (p : Payload) (m : Byte) (flip : List Bool), flip.length = 5 → flip.count true % 2 = 0 →
    xorfold (List.zipWith (fun b z => if z then b ^^^ m else b) p.bytes flip) = checksum p) ∧
  (∀ p q : Payload, p.bytes.Perm q.bytes → checksum p = checksum q)

/-- R65: `WellFormed` as defined, every encoded frame has it, every frame with it is an encoded one, and different
payloads have different frames. -/
def Obligations.WellFormedFramesAreTheEncoded : Prop :=
  (∀ f : FrameWord, frameOk f = true ↔
    frameByte f 0 = 0xF5 ∧ frameByte f 7 = 0xF5 ∧
      frameByte f 6 = frameByte f 1 ^^^ frameByte f 2 ^^^ frameByte f 3 ^^^ frameByte f 4 ^^^ frameByte f 5) ∧
  (∀ p : Payload, frameOk (frameEncode p) = true) ∧
  (∀ f : FrameWord, frameOk f = true →
    f = frameEncode ⟨frameByte f 1, frameByte f 2, frameByte f 3, frameByte f 4, frameByte f 5⟩) ∧
  (∀ p q : Payload, frameEncode p = frameEncode q → p = q)

/-- R53: the parameter layout of every operation, through the frame of its table row. -/
def Obligations.ParameterLayout : Prop :=
  (∀ (uid : Word16) (level : Byte),
    encode (.enrollStart uid level) = frameEncode ⟨0x01, hi8 uid, lo8 uid, level, 0x00⟩ ∧
    encode (.enrollIntermediate uid level) = frameEncode ⟨0x02, hi8 uid, lo8 uid, level, 0x00⟩ ∧
    encode (.enrollEnd uid level) = frameEncode ⟨0x03, hi8 uid, lo8 uid, level, 0x00⟩) ∧
  (∀ uid : Word16,
    encode (.removeOne uid) = frameEncode ⟨0x04, hi8 uid, lo8 uid, 0x00, 0x00⟩ ∧
    encode (.compareOne uid) = frameEncode ⟨0x0B, hi8 uid, lo8 uid, 0x00, 0x00⟩ ∧
    encode (.getUserLevel uid) = frameEncode ⟨0x0A, hi8 uid, lo8 uid, 0x00, 0x00⟩) ∧
  encode .removeAll = frameEncode ⟨0x05, 0x00, 0x00, 0x00, 0x00⟩ ∧
  encode .getUserCount = frameEncode ⟨0x09, 0x00, 0x00, 0x00, 0x00⟩ ∧
  encode .authenticate = frameEncode ⟨0x0C, 0x00, 0x00, 0x00, 0x00⟩ ∧
  (∀ v : Byte, encode (.setCompareLevel v) = frameEncode ⟨0x28, 0x00, v, 0x01, 0x00⟩ ∧
    encode (.setBaudRate v) = frameEncode ⟨0x21, 0x00, 0x00, v, 0x00⟩) ∧
  (∀ lo hi : Word16,
    encode (.getNextAvailableId lo hi) = frameEncode ⟨0x47, hi8 lo, lo8 lo, hi8 hi, lo8 hi⟩) ∧
  encode .sleep = frameEncode ⟨0x2C, 0x00, 0x00, 0x00, 0x00⟩ ∧
  (∀ (cmd : Byte) (p : ParamWord),
    encode (.rawExch cmd p) = frameEncode ⟨cmd, p.extractLsb' 24 8, p.extractLsb' 16 8, p.extractLsb' 8 8,
      p.extractLsb' 0 8⟩ ∧
    encode (.rawSend cmd p) = frameEncode ⟨cmd, p.extractLsb' 24 8, p.extractLsb' 16 8, p.extractLsb' 8 8,
      p.extractLsb' 0 8⟩)

/-- The frame decoder gives every named operation back from its frame, with every operand at every value. It gives no raw
operation back as such, by the model's choice (log entry 2): a raw frame that fits no named row reads as the raw exchange
of its bytes, whichever of the two raw operations sent it, and one that fits a named row as the operation with that very
frame. -/
def Obligations.DecodeOfEncode : Prop :=
  ∀ i : Instr,
    let rawCase (cmd : Byte) (p : ParamWord) : Prop :=
      (namedRow cmd p = none → decodeFrame (encode i) = .ok (.rawExch cmd p)) ∧
      (∀ j, namedRow cmd p = some j → decodeFrame (encode i) = .ok j ∧ encode j = encode i)
    match i with
    | .rawExch cmd p => rawCase cmd p
    | .rawSend cmd p => rawCase cmd p
    | _ => decodeFrame (encode i) = .ok i

/-- Every well-formed frame decodes, and the frame of what it decodes to is that frame: no bit is dropped. -/
def Obligations.EncodeOfDecode : Prop :=
  ∀ f : FrameWord, frameOk f = true → ∃ i : Instr, decodeFrame f = .ok i ∧ encode i = f

/-- R58 and R45: only eight bytes between two markers are a frame; the reason for every refusal is named. That every word
between two markers decodes, a wrong checksum among them, is the model's choice (DESIGN CHOICE, log entry 2): the decoder
does not look at the checksum R45 fixes. -/
def Obligations.DecoderRejectsByName : Prop :=
  (∀ bs : List Byte, bs.length ≠ 8 → decodeBytes bs = .error .badLength) ∧
  (∀ f : FrameWord, frameByte f 0 ≠ 0xF5 → decodeFrame f = .error .badLead) ∧
  (∀ f : FrameWord, frameByte f 0 = 0xF5 → frameByte f 7 ≠ 0xF5 → decodeFrame f = .error .badTrail) ∧
  (∀ f : FrameWord, frameByte f 0 = 0xF5 → frameByte f 7 = 0xF5 → ∃ i, decodeFrame f = .ok i)

/-- R49 and R50: the operation each op tag names, with the fields it uses and no other. -/
def Obligations.OpTagsNameTheOperations : Prop :=
  ∀ c : Command,
    (c.op = 0x0 → decodeCommand c = .ok (.rawExch c.rc8 c.rp32)) ∧
    (c.op = 0x1 → decodeCommand c = .ok (.rawSend c.rc8 c.rp32)) ∧
    (c.op = 0x2 → c.s8 = 1 → decodeCommand c = .ok (.enrollStart c.a16 c.v8)) ∧
    (c.op = 0x2 → c.s8 = 2 → decodeCommand c = .ok (.enrollIntermediate c.a16 c.v8)) ∧
    (c.op = 0x2 → c.s8 = 3 → decodeCommand c = .ok (.enrollEnd c.a16 c.v8)) ∧
    (c.op = 0x3 → decodeCommand c = .ok (.removeOne c.a16)) ∧
    (c.op = 0x4 → decodeCommand c = .ok .removeAll) ∧
    (c.op = 0x5 → decodeCommand c = .ok .getUserCount) ∧
    (c.op = 0x6 → decodeCommand c = .ok (.compareOne c.a16)) ∧
    (c.op = 0x7 → decodeCommand c = .ok .authenticate) ∧
    (c.op = 0x8 → decodeCommand c = .ok (.getUserLevel c.a16)) ∧
    (c.op = 0x9 → decodeCommand c = .ok (.setCompareLevel c.v8)) ∧
    (c.op = 0xA → decodeCommand c = .ok (.setBaudRate c.v8)) ∧
    (c.op = 0xB → decodeCommand c = .ok (.getNextAvailableId c.a16 c.b16)) ∧
    (c.op = 0xC → decodeCommand c = .ok .sleep) ∧
    (c.op = 0xD ∨ c.op = 0xE ∨ c.op = 0xF → decodeCommand c = .error .reservedOp)

/-- Words written out from the spec's frames (95_test_vectors.md V1) decode to the commands they stand for. The last word V1 calls only raw: reading it as RAW_EXCH is the model's choice
(DESIGN CHOICE, log entry 2). -/
def Obligations.SpecWordsDecode : Prop :=
  decodeTableWord 64 0xF5010001010001F5 = some (.enrollStart 1 1) ∧
  decodeTableWord 64 0xF5040102000007F5 = some (.removeOne 0x0102) ∧
  decodeTableWord 64 0xF50C000000000CF5 = some .authenticate ∧
  decodeTableWord 64 0xF528000501002CF5 = some (.setCompareLevel 5) ∧
  decodeTableWord 64 0xF54700010BB8F5F5 = some (.getNextAvailableId 1 3000) ∧
  decodeTableWord 64 0xF5F5F5F5F5F5F5F5 = some (.rawExch 0xF5 0xF5F5F5F5)

/-! ## The operations: acceptance, refusal, write, reply, failures, and the value the source returns -/

/-- R88. -/
def Obligations.EnrollOperation : Prop :=
  (∀ (stage : EnrollStage) (uid : Word16) (level : Byte), let i := enrollInstr stage uid level
    (level = 1 ∨ level = 2 ∨ level = 3 →
      acceptsWith i 0x2 0xF5 stage.code (hi8 uid) (lo8 uid) level 0x00
        (stage.code ^^^ hi8 uid ^^^ lo8 uid ^^^ level) 0xF5) ∧
    (¬(level = 1 ∨ level = 2 ∨ level = 3) → refusesWith i 0x2 0x03) ∧
    readsAfterWrite i ∧
    decodesReply i (fun r0 r1 r2 r3 r4 => res .ack r3 0 (packReply r0 r1 r2 r3 r4)) ∧
    failsRead i) ∧
  (∀ (s : State) (c : Command) (rest : List Event), s.fsm = .idle → comesNext s (.present c) rest →
    c.op = 0x2 → c.s8 ≠ 1 → c.s8 ≠ 2 → c.s8 ≠ 3 →
    step s = .next { s with script := rest, opQ := 0x2, res := res .argRefused 0x02 0 0, fsm := .done }) ∧
  EnrollStage.first.code = 0x01 ∧ EnrollStage.intermediate.code = 0x02 ∧ EnrollStage.last.code = 0x03 ∧
  (∀ (r3 : Byte) (reply : ReplyWord), project .enroll (res .ack r3 0 reply) = some (.ack (ackDecode r3))) ∧
  errorProjects .enroll .transportError

/-- R89. -/
def Obligations.RemoveOneOperation : Prop :=
  (∀ uid : Word16, operation (.removeOne uid) 0x3 0x04 (hi8 uid) (lo8 uid) 0x00 0x00
    (0x04 ^^^ hi8 uid ^^^ lo8 uid) (fun r0 r1 r2 r3 r4 => res .ack r3 0 (packReply r0 r1 r2 r3 r4))) ∧
  (∀ (r3 : Byte) (reply : ReplyWord), project .removeOne (res .ack r3 0 reply) = some (.ack (ackDecode r3))) ∧
  errorProjects .removeOne .transportError

/-- R90. -/
def Obligations.RemoveAllOperation : Prop :=
  operation .removeAll 0x4 0x05 0x00 0x00 0x00 0x00 0x05
    (fun r0 r1 r2 r3 r4 => res .ack r3 0 (packReply r0 r1 r2 r3 r4)) ∧
  (∀ (r3 : Byte) (reply : ReplyWord), project .removeAll (res .ack r3 0 reply) = some (.ack (ackDecode r3))) ∧
  errorProjects .removeAll .transportError

/-- R91: the count is `be16(r1, r2)` whatever `r3` holds, 65535 among them. -/
def Obligations.GetUserCountOperation : Prop :=
  operation .getUserCount 0x5 0x09 0x00 0x00 0x00 0x00 0x09
    (fun r0 r1 r2 r3 r4 => res .count 0 (be16 r1 r2) (packReply r0 r1 r2 r3 r4)) ∧
  (∀ r1 r2 : Byte, (be16 r1 r2).toNat = r1.toNat * 256 + r2.toNat) ∧
  (∀ (v : Word16) (reply : ReplyWord), project .getUserCount (res .count 0 v reply) = some (.int v.toNat)) ∧
  errorProjects .getUserCount (.int (-1))

/-- R92. -/
def Obligations.CompareOneOperation : Prop :=
  (∀ uid : Word16, operation (.compareOne uid) 0x6 0x0B (hi8 uid) (lo8 uid) 0x00 0x00
    (0x0B ^^^ hi8 uid ^^^ lo8 uid) (fun r0 r1 r2 r3 r4 => res .ack r3 0 (packReply r0 r1 r2 r3 r4))) ∧
  (∀ (r3 : Byte) (reply : ReplyWord), project .compareOne (res .ack r3 0 reply) = some (.ack (ackDecode r3))) ∧
  errorProjects .compareOne .transportError

/-- R93. -/
def Obligations.AuthenticateOperation : Prop :=
  operation .authenticate 0x7 0x0C 0x00 0x00 0x00 0x00 0x0C (fun r0 r1 r2 r3 r4 =>
    if r3 = 0x05 ∨ r3 = 0x08 then res .authFail 0 0 (packReply r0 r1 r2 r3 r4)
    else if r3 = 1 ∨ r3 = 2 ∨ r3 = 3 then res .authMatch r3 (be16 r1 r2) (packReply r0 r1 r2 r3 r4)
    else res .authOther r3 (be16 r1 r2) (packReply r0 r1 r2 r3 r4)) ∧
  (∀ (v : Word16) (reply : ReplyWord),
    project .authenticate (res .authFail 0 0 reply) = some (.auth .fail 0) ∧
    project .authenticate (res .authMatch 1 v reply) = some (.auth .level1 v) ∧
    project .authenticate (res .authMatch 2 v reply) = some (.auth .level2 v) ∧
    project .authenticate (res .authMatch 3 v reply) = some (.auth .level3 v)) ∧
  errorProjects .authenticate .transportError ∧
  (∀ (a : Byte) (v : Word16) (reply : ReplyWord), project .authenticate (res .authOther a v reply) = none)

/-- R94, with `LevelDecode` of R85. -/
def Obligations.GetUserLevelOperation : Prop :=
  (∀ uid : Word16, operation (.getUserLevel uid) 0x8 0x0A (hi8 uid) (lo8 uid) 0x00 0x00
    (0x0A ^^^ hi8 uid ^^^ lo8 uid) (fun r0 r1 r2 r3 r4 =>
      if r3 = 0x05 then res .levelFail 0 0 (packReply r0 r1 r2 r3 r4)
      else if r3 = 1 ∨ r3 = 2 ∨ r3 = 3 then res .level r3 0 (packReply r0 r1 r2 r3 r4)
      else res .levelOther r3 0 (packReply r0 r1 r2 r3 r4))) ∧
  (∀ reply : ReplyWord,
    project .getUserLevel (res .level 1 0 reply) = some (.level .level1) ∧
    project .getUserLevel (res .level 2 0 reply) = some (.level .level2) ∧
    project .getUserLevel (res .level 3 0 reply) = some (.level .level3) ∧
    project .getUserLevel (res .levelFail 0 0 reply) = some (.level .fail)) ∧
  errorProjects .getUserLevel (.level .fail) ∧
  (∀ (a : Byte) (reply : ReplyWord), project .getUserLevel (res .levelOther a 0 reply) = none)

/-- R95: levels 0 to 9 are sent with the persist flag 1, others refused. -/
def Obligations.SetCompareLevelOperation : Prop :=
  (∀ v : Byte, let i := Instr.setCompareLevel v
    (v.toNat ≤ 9 → acceptsWith i 0x9 0xF5 0x28 0x00 v 0x01 0x00 (0x29 ^^^ v) 0xF5) ∧
    (9 < v.toNat → refusesWith i 0x9 0x04) ∧
    readsAfterWrite i ∧
    decodesReply i (fun r0 r1 r2 r3 r4 => res .ack r3 0 (packReply r0 r1 r2 r3 r4)) ∧
    failsRead i) ∧
  (∀ (r3 : Byte) (reply : ReplyWord),
    project .setCompareLevel (res .ack r3 0 reply) = some (.ack (ackDecode r3))) ∧
  errorProjects .setCompareLevel .transportError

/-- R96, with `BaudDecode` of R86; the Transport's own rate stays, as everything the next state does not name. -/
def Obligations.SetBaudRateOperation : Prop :=
  (∀ b : Byte, let i := Instr.setBaudRate b
    (b = 1 ∨ b = 2 ∨ b = 3 ∨ b = 4 ∨ b = 5 →
      acceptsWith i 0xA 0xF5 0x21 0x00 0x00 b 0x00 (0x21 ^^^ b) 0xF5) ∧
    (¬(b = 1 ∨ b = 2 ∨ b = 3 ∨ b = 4 ∨ b = 5) → refusesWith i 0xA 0x05) ∧
    readsAfterWrite i ∧
    decodesReply i (fun r0 r1 r2 r3 r4 =>
      if r3 = 1 ∨ r3 = 2 ∨ r3 = 3 ∨ r3 = 4 ∨ r3 = 5 then res .baud r3 0 (packReply r0 r1 r2 r3 r4)
      else res .baudOther r3 0 (packReply r0 r1 r2 r3 r4)) ∧
    failsRead i) ∧
  (∀ reply : ReplyWord,
    project .setBaudRate (res .baud 1 0 reply) = some (.baud .b9600) ∧
    project .setBaudRate (res .baud 2 0 reply) = some (.baud .b19200) ∧
    project .setBaudRate (res .baud 3 0 reply) = some (.baud .b38400) ∧
    project .setBaudRate (res .baud 4 0 reply) = some (.baud .b57600) ∧
    project .setBaudRate (res .baud 5 0 reply) = some (.baud .b115200)) ∧
  errorProjects .setBaudRate (.baud .unknown) ∧
  (∀ (a : Byte) (reply : ReplyWord), project .setBaudRate (res .baudOther a 0 reply) = none)

/-- R97: -1 and -2 are apart from each other and from every id; `lo` above `hi` is sent as it is. -/
def Obligations.GetNextAvailableIdOperation : Prop :=
  (∀ lo hi : Word16, operation (.getNextAvailableId lo hi) 0xB 0x47 (hi8 lo) (lo8 lo) (hi8 hi) (lo8 hi)
    (0x47 ^^^ hi8 lo ^^^ lo8 lo ^^^ hi8 hi ^^^ lo8 hi) (fun r0 r1 r2 r3 r4 =>
      if r3 = 0x05 ∨ r3 = 0x01 then res .idNone 0 0 (packReply r0 r1 r2 r3 r4)
      else res .id 0 (be16 r1 r2) (packReply r0 r1 r2 r3 r4))) ∧
  (∀ (v : Word16) (reply : ReplyWord),
    project .getNextAvailableId (res .id 0 v reply) = some (.int v.toNat) ∧
    project .getNextAvailableId (res .idNone 0 0 reply) = some (.int (-2)) ∧
    (.int v.toNat : SourceValue) ≠ .int (-1) ∧ (.int v.toNat : SourceValue) ≠ .int (-2)) ∧
  errorProjects .getNextAvailableId (.int (-1)) ∧
  (.int (-1) : SourceValue) ≠ .int (-2)

/-- R79: any command byte and parameters, the raw reply with no interpretation. -/
def Obligations.RawExchangeOperation : Prop :=
  ∀ (c p0 p1 p2 p3 : Byte), let i := Instr.rawExch c (p0 ++ p1 ++ p2 ++ p3)
    acceptsWith i 0x0 0xF5 c p0 p1 p2 p3 (c ^^^ p0 ^^^ p1 ^^^ p2 ^^^ p3) 0xF5 ∧
    readsAfterWrite i ∧
    decodesReply i (fun r0 r1 r2 r3 r4 => res .raw 0 0 (packReply r0 r1 r2 r3 r4)) ∧
    failsRead i

/-- R80, with R71: a full write ends in SENT, a short or failed one in its cause, and no read is issued. -/
def Obligations.RawSendOperation : Prop :=
  ∀ (c p0 p1 p2 p3 : Byte), let i := Instr.rawSend c (p0 ++ p1 ++ p2 ++ p3)
    acceptsWith i 0x1 0xF5 c p0 p1 p2 p3 (c ^^^ p0 ^^^ p1 ^^^ p2 ^^^ p3) 0xF5 ∧
    (∀ s : State, s.fsm = .write →
      (s.port = .wrote (.ok 8) →
        exec i s = .next { s with fsm := .done, res := res .sent 0 0 0, port := .quiet }) ∧
      (∀ n : Fin 9, n.val < 8 → s.port = .wrote (.ok n) →
        exec i s = .next { s with fsm := .done, res := res .transportError 0x02 0 0, port := .quiet }) ∧
      (s.port = .wrote .err →
        exec i s = .next { s with fsm := .done, res := res .transportError 0x01 0 0, port := .quiet }))

/-- R98, with R72: the result is SENT whatever the write result, and no read is issued. -/
def Obligations.SleepOperation : Prop :=
  acceptsWith .sleep 0xC 0xF5 0x2C 0x00 0x00 0x00 0x00 0x2C 0xF5 ∧
  (∀ (s : State) (w : WriteResult), s.fsm = .write → s.port = .wrote w →
    exec .sleep s = .next { s with fsm := .done, res := res .sent 0 0 0, port := .quiet }) ∧
  project .sleep (res .sent 0 0 0) = some .nothing

/-- R83: the class of every ack byte, and the byte itself, not its class, in the result of the ack-valued operations. -/
def Obligations.AckClasses : Prop :=
  ackDecode 0x00 = .success ∧ ackDecode 0x01 = .fail ∧ ackDecode 0x04 = .full ∧ ackDecode 0x05 = .noUser ∧
  ackDecode 0x06 = .userOccupied ∧ ackDecode 0x07 = .userExist ∧ ackDecode 0x08 = .timeout ∧
  ackDecode 0x09 = .tryAgain ∧
  (∀ b : Byte, b = 0x02 ∨ b = 0x03 ∨ 0x0A ≤ b.toNat → ackDecode b = .other b) ∧
  (∀ (op : OpTag) (r0 r1 r2 r3 r4 : Byte), op ∈ [.enroll, .removeOne, .removeAll, .compareOne, .setCompareLevel] →
    decodeReply op (packReply r0 r1 r2 r3 r4) = some (res .ack r3 0 (packReply r0 r1 r2 r3 r4)))

/-- R84: the two fields of a reply, the source's example, and `r0` and `r4` reach no result but through `res_reply`. -/
def Obligations.ReservedReplyBytesUnread : Prop :=
  (∀ r0 r1 r2 r3 r4 : Byte, replyAck (packReply r0 r1 r2 r3 r4) = r3 ∧
    replyVal16 (packReply r0 r1 r2 r3 r4) = be16 r1 r2 ∧
    (be16 r1 r2).toNat = r1.toNat * 256 + r2.toNat) ∧
  be16 0x01 0x2C = 300 ∧
  ∀ (op : OpTag) (r0 r4 q0 q4 r1 r2 r3 : Byte),
    (decodeReply op (packReply r0 r1 r2 r3 r4)).map seen = (decodeReply op (packReply q0 r1 r2 r3 q4)).map seen ∧
    (∀ r, decodeReply op (packReply r0 r1 r2 r3 r4) = some r → r.reply = packReply r0 r1 r2 r3 r4)

/-! ## Commands at the port -/

/-- A step at which a command is accepted runs the instruction its fields decode to, on the state with the event
taken off the schedule; placing a table word makes the next step run that word's instruction, in `IDLE` (the model's
placing, log entry 9). -/
def Obligations.StepRunsThePresentedInstruction : Prop :=
  (∀ (s : State) (c : Command) (rest : List Event) (i : Instr), s.fsm = .idle → comesNext s (.present c) rest →
    decodeCommand c = .ok i → step s = exec i { s with script := rest }) ∧
  (∀ (s : State) (nbits w : Nat) (i : Instr), decodeTableWord nbits w = some i →
    step (s.withFetchWord nbits w) = exec i { s with fsm := .idle })

/-- A step at which a request completes runs the instruction in flight on what the Transport made of the state: the
bytes sent or received, the completion on the port (the clock of a short read: log entry 7). -/
def Obligations.StepDeliversTheCompletion : Prop :=
  ∀ (s : State) (i : Instr) (rest : List Event), inFlight s = some i →
    (∀ n : Fin 9, s.fsm = .write → comesNext s (.writeOk n) rest →
      step s = exec i { s with script := rest, tx := s.tx ++ (frameBytes s.frame).take n, port := .wrote (.ok n) }) ∧
    (∀ k : Fin 9, s.fsm = .write → comesNext s (.writeErr k) rest →
      step s = exec i { s with script := rest, tx := s.tx ++ (frameBytes s.frame).take k, port := .wrote .err }) ∧
    (s.fsm = .read → comesNext s .readReturn rest → 5 ≤ s.rx.length →
      step s = exec i { s with script := rest, rx := s.rx.drop 5, port := .got (.ok (s.rx.take 5)) }) ∧
    (s.fsm = .read → comesNext s .readReturn rest → s.rx.length < 5 →
      step s = exec i { s with script := rest, rx := [], now := max s.now s.readDeadline,
                               port := .got (.ok s.rx) }) ∧
    (∀ j : Fin 6, s.fsm = .read → comesNext s (.readErr j) rest →
      step s = exec i { s with script := rest, rx := s.rx.drop j, port := .got .err })

/-- R68: the check of a presented command, line by line, and what acceptance does when it passes. -/
def Obligations.ArgumentCheck : Prop :=
  ∀ (s : State) (c : Command) (rest : List Event), s.fsm = .idle → comesNext s (.present c) rest →
    let refused (code : Byte) : Prop :=
      step s = .next { s with script := rest, opQ := c.op, res := res .argRefused code 0 0, fsm := .done }
    if c.op = 0xD ∨ c.op = 0xE ∨ c.op = 0xF then refused 0x01
    else if c.op = 0x2 ∧ c.s8 ∉ [1#8, 2#8, 3#8] then refused 0x02
    else if c.op = 0x2 ∧ c.v8 ∉ [1#8, 2#8, 3#8] then refused 0x03
    else if c.op = 0x9 ∧ 9 < c.v8.toNat then refused 0x04
    else if c.op = 0xA ∧ c.v8 ∉ [1#8, 2#8, 3#8, 4#8, 5#8] then refused 0x05
    else ∃ i, decodeCommand c = .ok i ∧
      step s = .next { s with script := rest, opQ := c.op, frame := encode i, fsm := .write }

/-- `ArgCheck` on the fields and the well-formedness of the instruction they name are the same check. -/
def Obligations.ArgCheckIsWellFormedness : Prop :=
  ∀ c : Command, argCheck c = none ↔ ∃ i, decodeCommand c = .ok i ∧ i.wellFormed = true

/-- R13 and R14: after acceptance the registers hold the accepted command: `op_q` and `frame` give it back. -/
def Obligations.RegistersHoldTheCommand : Prop :=
  ∀ (i : Instr) (s : State), i.wellFormed = true → s.fsm = .idle →
    ∃ t, exec i s = .next t ∧ inFlight t = some i ∧ t.frame = encode i ∧ t.opQ = i.tag.code

/-- R48 and R44: a command presented outside `IDLE` has no effect. -/
def Obligations.BusyPortIgnoresCommands : Prop :=
  ∀ (s : State) (c : Command) (rest : List Event), s.cmdReady = false → comesNext s (.present c) rest →
    step s = .next { s with script := rest }

/-! ## The frame of an instruction's transition -/

/-- What one transition of any instruction leaves alone: the streams, the clock, the Transport's rate, what the host
has seen, the parameters and the schedule always; `op_q` and `frame` outside `IDLE`; `rbuf` unless a full reply was
delivered; the result registers unless `DONE` is entered; `readDeadline` unless the read is issued. -/
def Obligations.InstructionFrame : Prop :=
  ∀ (i : Instr) (s t : State), exec i s = .next t →
    t.tx = s.tx ∧ t.rx = s.rx ∧ t.now = s.now ∧ t.transportBaud = s.transportBaud ∧ t.taken = s.taken ∧
    t.sampled = s.sampled ∧ t.params = s.params ∧ t.script = s.script ∧
    (s.fsm ≠ .idle → t.opQ = s.opQ ∧ t.frame = s.frame) ∧
    (t.fsm ≠ .write → t.frame = s.frame) ∧
    (t.rbuf ≠ s.rbuf → s.fsm = .read ∧ t.fsm = .done ∧ ∃ bs, s.port = .got (.ok bs) ∧ 5 ≤ bs.length) ∧
    (t.res ≠ s.res → s.fsm ≠ .done ∧ t.fsm = .done) ∧
    (t.readDeadline ≠ s.readDeadline → s.fsm = .write ∧ t.fsm = .read)

/-- R66 and R82: an instruction whose request has not completed, or whose result is held, waits: its transition
changes nothing. -/
def Obligations.InstructionWaits : Prop :=
  ∀ (i : Instr) (s : State),
    (s.fsm = .done ∨ (s.fsm = .write ∧ ∀ w, s.port ≠ .wrote w) ∨
      (s.fsm = .read ∧ (i.tag.expectsReply = false ∨ ∀ r, s.port ≠ .got r))) →
    exec i s = .next s

/-- R106: a transition that enters `DONE` with an error leaves `frame` and `rbuf` alone, and outside acceptance `op_q`
too (R68 writes it at acceptance: log entry 11); its result carries no value and no reply. -/
def Obligations.ErrorEntryIsPrecise : Prop :=
  ∀ (i : Instr) (s t : State), exec i s = .next t → s.fsm ≠ .done → t.fsm = .done →
    (t.res.kind = .transportError ∨ t.res.kind = .argRefused) →
    t.frame = s.frame ∧ t.rbuf = s.rbuf ∧ t.res.value = 0 ∧ t.res.reply = 0 ∧
    (s.fsm ≠ .idle → t.opQ = s.opQ ∧ t.res.kind = .transportError)

/-! ## The streams -/

/-- R33 and R28: the first `n` bytes of the frame, in index order, go out, and no others; on an error the first `k`. -/
def Obligations.WriteAppendsAPrefixOfTheFrame : Prop :=
  ∀ (s : State) (rest : List Event), s.fsm = .write →
    (∀ n : Fin 9, comesNext s (.writeOk n) rest →
      ∃ t, step s = .next t ∧ t.rx = s.rx ∧ t.tx = s.tx ++ List.take n
        [frameByte s.frame 0, frameByte s.frame 1, frameByte s.frame 2, frameByte s.frame 3,
         frameByte s.frame 4, frameByte s.frame 5, frameByte s.frame 6, frameByte s.frame 7]) ∧
    (∀ k : Fin 9, comesNext s (.writeErr k) rest →
      ∃ t, step s = .next t ∧ t.rx = s.rx ∧ t.tx = s.tx ++ List.take k
        [frameByte s.frame 0, frameByte s.frame 1, frameByte s.frame 2, frameByte s.frame 3,
         frameByte s.frame 4, frameByte s.frame 5, frameByte s.frame 6, frameByte s.frame 7])

/-- R34, R37 and R38, for a read of an operation that awaits a reply: with 5 or more bytes the first five are consumed
and become the reply; with fewer all are consumed and lost, `rbuf` not written; on an error `j`, at most all, go. -/
def Obligations.ReadConsumesFromTheFront : Prop :=
  ∀ (s : State) (rest : List Event), s.fsm = .read → expectsReply s.opQ = true →
    (∀ r0 r1 r2 r3 r4 more, s.rx = r0 :: r1 :: r2 :: r3 :: r4 :: more → comesNext s .readReturn rest →
      ∃ t, step s = .next t ∧ t.rx = more ∧ t.rbuf = packReply r0 r1 r2 r3 r4 ∧ t.res.reply = t.rbuf ∧
        t.tx = s.tx ∧ t.fsm = .done) ∧
    (s.rx.length ≤ 4 → comesNext s .readReturn rest →
      ∃ t, step s = .next t ∧ t.rx = [] ∧ t.rbuf = s.rbuf ∧ t.tx = s.tx ∧ t.fsm = .done ∧
        t.res = res .transportError (if s.rx = [] then 0x04 else 0x05) 0 0) ∧
    (∀ j : Fin 6, comesNext s (.readErr j) rest →
      ∃ t, step s = .next t ∧ t.rx = s.rx.drop (min j s.rx.length) ∧ t.rbuf = s.rbuf ∧ t.tx = s.tx ∧
        t.fsm = .done ∧ t.res = res .transportError 0x03 0 0)

/-- R26, R27 and R40: in every step the TX stream only grows, by a prefix of `frame`, and only out of `WRITE`; the RX
stream loses at most 5 bytes off its front, and only out of `READ`, and gains bytes at its end only from the Device. -/
def Obligations.StreamsChangeOnlyAtTheirEnds : Prop :=
  ∀ s t : State, step s = .next t →
    (∃ k, t.tx = s.tx ++ (frameBytes s.frame).take k) ∧ (s.fsm ≠ .write → t.tx = s.tx) ∧
    ((∃ j, j ≤ 5 ∧ t.rx = s.rx.drop j ∧ (s.fsm ≠ .read → j = 0)) ∨
      ∃ bytes rest, comesNext s (.deviceSends bytes) rest ∧ t.rx = s.rx ++ bytes)

/-- R27: a Device append, in every state, puts its bytes at the end of the RX stream and changes nothing else. -/
def Obligations.DeviceAppendsAtTheEnd : Prop :=
  ∀ (s : State) (bytes : List Byte) (rest : List Event), comesNext s (.deviceSends bytes) rest →
    step s = .next { s with script := rest, rx := s.rx ++ bytes }

/-! ## The state machine -/

/-- R66: the FSM state after every event in every state, for an `op_q` that holds a defined tag wherever a request is
outstanding. R66 has no row for the passing of time: that it leaves `READ` once 5 bytes are there or past the deadline,
and not exactly at it, is R35 in the model's pieces of time (DESIGN CHOICE, log entry 7). -/
def Obligations.TransitionTable : Prop :=
  ∀ (s t : State) (e : Event) (rest : List Event), comesNext s e rest →
    (s.fsm = .write ∨ s.fsm = .read → opTagOfCode s.opQ ≠ none) →
    (s.fsm = .read → expectsReply s.opQ = true) →
    step s = .next t → t.fsm = nextFsm s e

/-- R82: only a completed write or reset leaves `WRITE`; only a completed read or reset leaves `READ`. A completed request
leads to where R66 says, reset to `IDLE`. Time passing leaves `READ` only as the read's completion: with 5 bytes there, or
past the deadline (R35; in the model's pieces of time, log entry 7). -/
def Obligations.NothingCancelsARequest : Prop :=
  ∀ s t : State, step s = .next t →
    (s.fsm = .write → t.fsm ≠ .write →
      ∃ e rest, comesNext s e rest ∧
        ((e = .writeOk 8 ∧ t.fsm = .read) ∨
          (((∃ n, e = .writeOk n) ∨ ∃ k, e = .writeErr k) ∧ t.fsm = .done) ∨
          ((∃ k j, e = .reset k j) ∧ t.fsm = .idle))) ∧
    (s.fsm = .read → t.fsm ≠ .read →
      ∃ e rest, comesNext s e rest ∧
        ((e = .readReturn ∧ t.fsm = .done) ∨ ((∃ j, e = .readErr j) ∧ t.fsm = .done) ∨
          ((∃ dt, e = .elapse dt ∧ elapseCompletes s dt) ∧ t.fsm = .done) ∨
          ((∃ k j, e = .reset k j) ∧ t.fsm = .idle)))

/-- R77 and R107: taking a result returns to `IDLE`, keeps the result registers, and changes nothing else but what the
host has taken. -/
def Obligations.TakeReturnsToIdle : Prop :=
  ∀ (s : State) (rest : List Event), s.fsm = .done → comesNext s .take rest →
    step s = .next { s with script := rest, fsm := .idle, taken := s.taken ++ [s.res] }

/-- R51 and R108: a result stays on the port, unchanged, through every event but a take and a reset. -/
def Obligations.ResultHeldUntilTaken : Prop :=
  ∀ (s t : State) (e : Event) (rest : List Event), s.fsm = .done → comesNext s e rest → e ≠ .take →
    (∀ k j, e ≠ .reset k j) → step s = .next t → t.fsm = .done ∧ t.res = s.res ∧ resultPort t = some s.res

/-- R41 item 2 and R81: the results the host has taken grow by one, the held one, at a take, and never otherwise. -/
def Obligations.ResultsTakenInOrder : Prop :=
  ∀ s t : State, step s = .next t →
    t.taken = s.taken ∨
      (∃ rest, comesNext s .take rest ∧ s.fsm = .done ∧ t.taken = s.taken ++ [s.res])

/-- A completion with no such request outstanding, and a take outside `DONE`, have no effect: R66's for an event not listed,
and R78's for a realisation. R78 and I21 would have no such completion in a model; that this model has the event is its
own reading (DEDUCED, log entry 12). -/
def Obligations.StrayEventsIgnored : Prop :=
  ∀ (s : State) (e : Event) (rest : List Event), comesNext s e rest →
    ((∃ n, e = .writeOk n) ∧ s.fsm ≠ .write ∨ (∃ k, e = .writeErr k) ∧ s.fsm ≠ .write ∨
      e = .readReturn ∧ s.fsm ≠ .read ∨ (∃ j, e = .readErr j) ∧ s.fsm ≠ .read ∨
      e = .take ∧ s.resValid = false) →
    step s = .next { s with script := rest }

/-- R24 and R122: the only fault is the host's reading of the result port while `res_valid = 0`, the only refusal
another agent's use of the Transport; every other step answers a next state. -/
def Obligations.WhereAStepStops : Prop :=
  ∀ s : State,
    (∀ r, step s = .fault r ↔ r = .resultNotValid ∧ s.resValid = false ∧ ∃ rest, comesNext s .sample rest) ∧
    (∀ r, step s = .refused r ↔ r = .foreignTransportUse ∧ ∃ rest, comesNext s .foreign rest)

/-- A read of the result port while a result is held gives that result and changes nothing else. That reading is an event
of its own, which records the result in `sampled` and takes nothing, is the model's choice (DESIGN CHOICE, log entry 15);
R51 has the result on the port, and R24 speaks only of reads while `res_valid = 0`. -/
def Obligations.ResultReadWithoutTaking : Prop :=
  ∀ (s : State) (rest : List Event), s.fsm = .done → comesNext s .sample rest →
    step s = .next { s with script := rest, sampled := some s.res }

/-- R35, R75 and R111: while a read is outstanding, no time passes once 5 bytes are there: the read completes first, with
the first five as its reply. None passes beyond the deadline: with fewer bytes the read completes there, all of them lost,
with cause 0x04 or 0x05 and `rbuf` kept. The rest of the time is still to pass (in pieces: the model's, log entry 7). -/
def Obligations.ReadTimeout : Prop :=
  ∀ (s : State) (op : OpTag) (dt : Nat) (rest : List Event), s.fsm = .read → opTagOfCode s.opQ = some op →
    op.expectsReply = true → s.now ≤ s.readDeadline → comesNext s (.elapse dt) rest →
    (∀ r0 r1 r2 r3 r4 more, s.rx = r0 :: r1 :: r2 :: r3 :: r4 :: more → 0 < dt →
      ∃ r, decodeReply op (packReply r0 r1 r2 r3 r4) = some r ∧
        step s = .next { s with script := .elapse dt :: rest, fsm := .done, rx := more, port := .quiet,
                                rbuf := packReply r0 r1 r2 r3 r4, res := r }) ∧
    (s.rx.length < 5 → s.readDeadline < s.now + dt →
      step s = .next { s with script := .elapse (s.now + dt - s.readDeadline) :: rest, fsm := .done, rx := [],
                              port := .quiet, now := s.readDeadline,
                              res := res .transportError (if s.rx = [] then 0x04 else 0x05) 0 0 }) ∧
    (dt = 0 ∨ s.rx.length < 5 ∧ s.now + dt ≤ s.readDeadline →
      step s = .next { s with script := rest, now := s.now + dt })

/-- R5 and R125: no step changes the parameters, and only the Transport-setup collaborator changes the Transport's baud
rate: no command does. -/
def Obligations.ParametersAndRateStay : Prop :=
  ∀ s t : State, step s = .next t →
    t.params = s.params ∧
    (t.transportBaud = s.transportBaud ∨
      ∃ rate rest, comesNext s (.configure rate) rest ∧ t = { s with script := rest, transportBaud := rate })

/-! ## Reset -/

/-- R23 and R18: the registers after reset, and the two status outputs. -/
def Obligations.ResetValues : Prop :=
  let s := State.reset
  s.fsm = .idle ∧ s.fsm.code = 0b00#2 ∧ s.opQ = 0x0 ∧ s.frame = 0 ∧ s.rbuf = 0 ∧
  s.res.kind.code = 0x0 ∧ s.res.aux = 0 ∧ s.res.value = 0 ∧ s.res.reply = 0 ∧
  s.cmdReady = true ∧ s.resValid = false ∧ resultPort s = none

/-- R116, R117 and R118: reset in any state. An abandoned write leaves a prefix of the frame on the TX stream, an
abandoned read up to 4 bytes fewer on the RX stream; otherwise the streams stay, and so does every field that is not the
block's. -/
def Obligations.ResetFromAnyState : Prop :=
  ∀ (s : State) (k : Fin 9) (j : Fin 5) (rest : List Event), comesNext s (.reset k j) rest →
    step s = .next (resetOf k j { s with script := rest }) ∧
    (resetOf k j s).cmdReady = true ∧ (resetOf k j s).resValid = false

/-- R105 items 4 and 5, from any state and whichever of the two events is named first. Reset coinciding with an event other
than a Device append runs as reset alone (as one of the two, if the other is a reset). Coinciding with a Device append it
runs in either order, and none of the appended bytes is lost but what an abandoned read takes: out of `READ` the draw may
reach into them if they came first. The schedules that stand for coincidence are the model's (log entry 14). -/
def Obligations.ResetTakesPrecedence : Prop :=
  (∀ (s : State) (k : Fin 9) (j : Fin 5) (e : Event) (order rest : List Event), (∀ bytes, e ≠ .deviceSends bytes) →
    order ∈ Safety.coincident (.reset k j) e ∨ order ∈ Safety.coincident e (.reset k j) →
    ∃ k' j', (e = .reset k' j' ∨ (k' = k ∧ j' = j)) ∧
      Host.Core.run core order.length { s with script := order ++ rest } =
        .next (resetOf k' j' { s with script := rest })) ∧
  (∀ (s : State) (k : Fin 9) (j : Fin 5) (bytes : List Byte) (order rest : List Event),
    order ∈ Safety.coincident (.reset k j) (.deviceSends bytes) ∨
      order ∈ Safety.coincident (.deviceSends bytes) (.reset k j) →
    (order = [.reset k j, .deviceSends bytes] ∨ order = [.deviceSends bytes, .reset k j]) ∧
    Host.Core.run core order.length { s with script := order ++ rest } =
      .next { resetOf k j { s with script := rest } with
        rx := if s.fsm = .read then
            (if order = [.reset k j, .deviceSends bytes] then s.rx.drop j ++ bytes else (s.rx ++ bytes).drop j)
          else s.rx ++ bytes }) ∧
  (∀ (k : Fin 9) (j : Fin 5) (bytes : List Byte) (order : List Event),
    order ∈ [[.reset k j, .deviceSends bytes], [.deviceSends bytes, .reset k j]] →
    order ∈ Safety.coincident (.reset k j) (.deviceSends bytes) ∧
      order ∈ Safety.coincident (.deviceSends bytes) (.reset k j))

/-! ## Whole exchanges, and the invariant -/

/-- R41 and R76: from `IDLE`, a well-formed command that awaits a reply, a full write and a full read end in `DONE` with
that operation's decoding of the first five bytes of the RX stream, whatever they answer; the frame is on the TX
stream, and what the read did not consume stays. -/
def Obligations.WholeExchange : Prop :=
  ∀ (s : State) (i : Instr) (r0 r1 r2 r3 r4 : Byte) (more : List Byte) (rest : List Event),
    i.wellFormed = true → i.tag.expectsReply = true → s.fsm = .idle →
    s.rx = r0 :: r1 :: r2 :: r3 :: r4 :: more →
    s.script = .present (encodeCommand i) :: .writeOk 8 :: .readReturn :: rest →
    ∃ r, decodeReply i.tag (packReply r0 r1 r2 r3 r4) = some r ∧
      Host.Core.run core 3 s = .next
        { s with fsm := .done, opQ := i.tag.code, frame := encode i, rbuf := packReply r0 r1 r2 r3 r4, res := r,
                 tx := s.tx ++ frameBytes (encode i), rx := more,
                 readDeadline := s.now + s.params.readTimeout, port := .quiet, script := rest }

/-- R72 and R71: from `IDLE`, a send-only command and a full write end in `DONE` with SENT, the frame on the TX stream
and the RX stream untouched. -/
def Obligations.WholeSend : Prop :=
  ∀ (s : State) (i : Instr) (rest : List Event), i.tag.expectsReply = false → s.fsm = .idle →
    s.script = .present (encodeCommand i) :: .writeOk 8 :: rest →
    Host.Core.run core 2 s = .next
      { s with fsm := .done, opQ := i.tag.code, frame := encode i, res := res .sent 0 0 0,
               tx := s.tx ++ frameBytes (encode i), port := .quiet, script := rest }

/-- The invariant holds right after reset. -/
def Obligations.InvariantAtReset : Prop := Safety.Inv State.reset

/-- Every step keeps the invariant, from every state that has it. -/
def Obligations.InvariantKept : Prop :=
  ∀ s t : State, Safety.Inv s → step s = .next t → Safety.Inv t
end

