-- ==== Sys2Proof/Laws/Bits.lean ====
section
/-! SUPPORT. The laws of the packed forms: each byte of a packed frame, reply or parameter word, the words
rebuilt from their bytes, and the two renderings of a frame, by bytes (R62) and by table row, compared. -/

namespace Sys2Proof.Laws

open Machine

@[simp] theorem frameByte_packFrame_0 (b0 b1 b2 b3 b4 b5 b6 b7 : Byte) :
    frameByte (packFrame b0 b1 b2 b3 b4 b5 b6 b7) 0 = b0 := by
  ext i hi
  simp only [frameByte, packFrame, BitVec.getElem_extractLsb', BitVec.getLsbD_append]
  grind

@[simp] theorem frameByte_packFrame_1 (b0 b1 b2 b3 b4 b5 b6 b7 : Byte) :
    frameByte (packFrame b0 b1 b2 b3 b4 b5 b6 b7) 1 = b1 := by
  ext i hi
  simp only [frameByte, packFrame, BitVec.getElem_extractLsb', BitVec.getLsbD_append]
  grind

@[simp] theorem frameByte_packFrame_2 (b0 b1 b2 b3 b4 b5 b6 b7 : Byte) :
    frameByte (packFrame b0 b1 b2 b3 b4 b5 b6 b7) 2 = b2 := by
  ext i hi
  simp only [frameByte, packFrame, BitVec.getElem_extractLsb', BitVec.getLsbD_append]
  grind

@[simp] theorem frameByte_packFrame_3 (b0 b1 b2 b3 b4 b5 b6 b7 : Byte) :
    frameByte (packFrame b0 b1 b2 b3 b4 b5 b6 b7) 3 = b3 := by
  ext i hi
  simp only [frameByte, packFrame, BitVec.getElem_extractLsb', BitVec.getLsbD_append]
  grind

@[simp] theorem frameByte_packFrame_4 (b0 b1 b2 b3 b4 b5 b6 b7 : Byte) :
    frameByte (packFrame b0 b1 b2 b3 b4 b5 b6 b7) 4 = b4 := by
  ext i hi
  simp only [frameByte, packFrame, BitVec.getElem_extractLsb', BitVec.getLsbD_append]
  grind

@[simp] theorem frameByte_packFrame_5 (b0 b1 b2 b3 b4 b5 b6 b7 : Byte) :
    frameByte (packFrame b0 b1 b2 b3 b4 b5 b6 b7) 5 = b5 := by
  ext i hi
  simp only [frameByte, packFrame, BitVec.getElem_extractLsb', BitVec.getLsbD_append]
  grind

@[simp] theorem frameByte_packFrame_6 (b0 b1 b2 b3 b4 b5 b6 b7 : Byte) :
    frameByte (packFrame b0 b1 b2 b3 b4 b5 b6 b7) 6 = b6 := by
  ext i hi
  simp only [frameByte, packFrame, BitVec.getElem_extractLsb', BitVec.getLsbD_append]
  grind

@[simp] theorem frameByte_packFrame_7 (b0 b1 b2 b3 b4 b5 b6 b7 : Byte) :
    frameByte (packFrame b0 b1 b2 b3 b4 b5 b6 b7) 7 = b7 := by
  ext i hi
  simp only [frameByte, packFrame, BitVec.getElem_extractLsb', BitVec.getLsbD_append]
  grind

theorem packFrame_frameByte (f : FrameWord) :
    packFrame (frameByte f 0) (frameByte f 1) (frameByte f 2) (frameByte f 3) (frameByte f 4)
      (frameByte f 5) (frameByte f 6) (frameByte f 7) = f := by
  apply BitVec.eq_of_getLsbD_eq
  intro i hi
  simp only [frameByte, packFrame, BitVec.getLsbD_append, BitVec.getLsbD_extractLsb']
  grind

@[simp] theorem frameBytes_packFrame (b0 b1 b2 b3 b4 b5 b6 b7 : Byte) :
    frameBytes (packFrame b0 b1 b2 b3 b4 b5 b6 b7) = [b0, b1, b2, b3, b4, b5, b6, b7] := by
  simp [frameBytes]

@[simp] theorem frameBytes_length (f : FrameWord) : (frameBytes f).length = 8 := rfl

@[simp] theorem replyByte_packReply_0 (r0 r1 r2 r3 r4 : Byte) :
    replyByte (packReply r0 r1 r2 r3 r4) 0 = r0 := by
  ext i hi
  simp only [replyByte, packReply, BitVec.getElem_extractLsb', BitVec.getLsbD_append]
  grind

@[simp] theorem replyByte_packReply_1 (r0 r1 r2 r3 r4 : Byte) :
    replyByte (packReply r0 r1 r2 r3 r4) 1 = r1 := by
  ext i hi
  simp only [replyByte, packReply, BitVec.getElem_extractLsb', BitVec.getLsbD_append]
  grind

@[simp] theorem replyByte_packReply_2 (r0 r1 r2 r3 r4 : Byte) :
    replyByte (packReply r0 r1 r2 r3 r4) 2 = r2 := by
  ext i hi
  simp only [replyByte, packReply, BitVec.getElem_extractLsb', BitVec.getLsbD_append]
  grind

@[simp] theorem replyByte_packReply_3 (r0 r1 r2 r3 r4 : Byte) :
    replyByte (packReply r0 r1 r2 r3 r4) 3 = r3 := by
  ext i hi
  simp only [replyByte, packReply, BitVec.getElem_extractLsb', BitVec.getLsbD_append]
  grind

@[simp] theorem replyByte_packReply_4 (r0 r1 r2 r3 r4 : Byte) :
    replyByte (packReply r0 r1 r2 r3 r4) 4 = r4 := by
  ext i hi
  simp only [replyByte, packReply, BitVec.getElem_extractLsb', BitVec.getLsbD_append]
  grind

@[simp] theorem replyAck_packReply (r0 r1 r2 r3 r4 : Byte) : replyAck (packReply r0 r1 r2 r3 r4) = r3 := by
  simp [replyAck]

@[simp] theorem replyVal16_packReply (r0 r1 r2 r3 r4 : Byte) :
    replyVal16 (packReply r0 r1 r2 r3 r4) = be16 r1 r2 := by
  simp [replyVal16]

theorem packReply_replyByte (r : ReplyWord) :
    packReply (replyByte r 0) (replyByte r 1) (replyByte r 2) (replyByte r 3) (replyByte r 4) = r := by
  apply BitVec.eq_of_getLsbD_eq
  intro i hi
  simp only [replyByte, packReply, BitVec.getLsbD_append, BitVec.getLsbD_extractLsb']
  grind

/-- `be16(hi, lo) = hi * 256 + lo` (R7). -/
theorem be16_toNat (hi lo : Byte) : (be16 hi lo).toNat = hi.toNat * 256 + lo.toNat := by
  simp only [be16, BitVec.toNat_append, Nat.shiftLeft_eq]
  rw [← Nat.shiftLeft_eq, ← Nat.shiftLeft_add_eq_or_of_lt lo.isLt, Nat.shiftLeft_eq]

/-- A 16-bit value read as two bytes and put together again (R30). -/
@[simp] theorem be16_hi8_lo8 (v : Word16) : be16 (hi8 v) (lo8 v) = v := by
  apply BitVec.eq_of_getLsbD_eq
  intro i hi
  simp only [be16, hi8, lo8, BitVec.getLsbD_append, BitVec.getLsbD_extractLsb']
  grind

@[simp] theorem xorfold_nil : xorfold [] = 0x00#8 := rfl

@[simp] theorem xorfold_cons (b : Byte) (bs : List Byte) : xorfold (b :: bs) = b ^^^ xorfold bs := rfl

/-- The parameter word of four bytes. -/
theorem paramByte_append (p0 p1 p2 p3 : Byte) :
    paramByte (p0 ++ p1 ++ p2 ++ p3) 0 = p0 ∧ paramByte (p0 ++ p1 ++ p2 ++ p3) 1 = p1 ∧
      paramByte (p0 ++ p1 ++ p2 ++ p3) 2 = p2 ∧ paramByte (p0 ++ p1 ++ p2 ++ p3) 3 = p3 := by
  refine ⟨?_, ?_, ?_, ?_⟩ <;>
  · ext i hi
    simp only [paramByte, BitVec.getElem_extractLsb', BitVec.getLsbD_append]
    grind

/-- A table row with its fields filled in is the FrameCodec's frame of the same five bytes. -/
theorem rowWord_eq_frameEncode (cmd : Byte) (p : ParamWord) :
    rowWord cmd p = frameEncode (payloadRaw cmd p) := by
  have hx : checksum (payloadRaw cmd p) =
      cmd ^^^ p.extractLsb' 24 8 ^^^ p.extractLsb' 16 8 ^^^ p.extractLsb' 8 8 ^^^ p.extractLsb' 0 8 := by
    simp [checksum, Payload.bytes, payloadRaw, paramByte, BitVec.xor_assoc]
  unfold rowWord frameEncode
  rw [hx]
  generalize cmd ^^^ p.extractLsb' 24 8 ^^^ p.extractLsb' 16 8 ^^^ p.extractLsb' 8 8 ^^^
    p.extractLsb' 0 8 = k
  apply BitVec.eq_of_getLsbD_eq
  intro i hi
  simp only [payloadRaw, packFrame, paramByte, Config.marker, BitVec.getLsbD_append,
    BitVec.getLsbD_extractLsb']
  grind

/-- The parameter field of a table row. -/
@[simp] theorem rowWord_params (cmd : Byte) (p : ParamWord) : (rowWord cmd p).extractLsb' 16 32 = p := by
  unfold rowWord
  generalize cmd ^^^ p.extractLsb' 24 8 ^^^ p.extractLsb' 16 8 ^^^ p.extractLsb' 8 8 ^^^
    p.extractLsb' 0 8 = k
  apply BitVec.eq_of_getLsbD_eq
  intro i hi
  simp only [BitVec.getLsbD_append, BitVec.getLsbD_extractLsb']
  grind

/-- The command field of a table row. -/
@[simp] theorem rowWord_cmd (cmd : Byte) (p : ParamWord) : frameByte (rowWord cmd p) 1 = cmd := by
  rw [rowWord_eq_frameEncode, frameEncode, frameByte_packFrame_1]
  rfl

/-- The halves of a parameter word made of two 16-bit fields. -/
@[simp] theorem extract_hi_append (a b : Word16) : (a ++ b : ParamWord).extractLsb' 16 16 = a := by
  apply BitVec.eq_of_getLsbD_eq
  intro i hi
  simp only [BitVec.getLsbD_append, BitVec.getLsbD_extractLsb']
  grind

@[simp] theorem extract_lo_append (a b : Word16) : (a ++ b : ParamWord).extractLsb' 0 16 = b := by
  apply BitVec.eq_of_getLsbD_eq
  intro i hi
  simp only [BitVec.getLsbD_append, BitVec.getLsbD_extractLsb']
  grind

end Sys2Proof.Laws
end

