-- ==== Sys2Proof/Laws/State.lean ====
section
/-! SUPPORT. One lemma per field of State and per named update of it, each true by definition, so that no proof
unfolds a record update. -/

namespace Sys2Proof.Laws

open Machine

@[simp] theorem emit_fsm (r : Result) (s : State) : (emit r s).fsm = .done := rfl
@[simp] theorem emit_opQ (r : Result) (s : State) : (emit r s).opQ = s.opQ := rfl
@[simp] theorem emit_frame (r : Result) (s : State) : (emit r s).frame = s.frame := rfl
@[simp] theorem emit_rbuf (r : Result) (s : State) : (emit r s).rbuf = s.rbuf := rfl
@[simp] theorem emit_res (r : Result) (s : State) : (emit r s).res = r := rfl
@[simp] theorem emit_tx (r : Result) (s : State) : (emit r s).tx = s.tx := rfl
@[simp] theorem emit_rx (r : Result) (s : State) : (emit r s).rx = s.rx := rfl
@[simp] theorem emit_now (r : Result) (s : State) : (emit r s).now = s.now := rfl
@[simp] theorem emit_readDeadline (r : Result) (s : State) : (emit r s).readDeadline = s.readDeadline := rfl
@[simp] theorem emit_transportBaud (r : Result) (s : State) :
    (emit r s).transportBaud = s.transportBaud := rfl
@[simp] theorem emit_port (r : Result) (s : State) : (emit r s).port = s.port := rfl
@[simp] theorem emit_taken (r : Result) (s : State) : (emit r s).taken = s.taken := rfl
@[simp] theorem emit_sampled (r : Result) (s : State) : (emit r s).sampled = s.sampled := rfl
@[simp] theorem emit_params (r : Result) (s : State) : (emit r s).params = s.params := rfl
@[simp] theorem emit_script (r : Result) (s : State) : (emit r s).script = s.script := rfl

@[simp] theorem raiseTransportError_fsm (c : Cause) (s : State) : (raiseTransportError c s).fsm = .done := rfl
@[simp] theorem raiseTransportError_opQ (c : Cause) (s : State) : (raiseTransportError c s).opQ = s.opQ := rfl
@[simp] theorem raiseTransportError_frame (c : Cause) (s : State) :
    (raiseTransportError c s).frame = s.frame := rfl
@[simp] theorem raiseTransportError_rbuf (c : Cause) (s : State) :
    (raiseTransportError c s).rbuf = s.rbuf := rfl
@[simp] theorem raiseTransportError_res (c : Cause) (s : State) :
    (raiseTransportError c s).res = resultTransportError c := rfl
@[simp] theorem raiseTransportError_tx (c : Cause) (s : State) : (raiseTransportError c s).tx = s.tx := rfl
@[simp] theorem raiseTransportError_rx (c : Cause) (s : State) : (raiseTransportError c s).rx = s.rx := rfl
@[simp] theorem raiseTransportError_now (c : Cause) (s : State) : (raiseTransportError c s).now = s.now := rfl
@[simp] theorem raiseTransportError_readDeadline (c : Cause) (s : State) :
    (raiseTransportError c s).readDeadline = s.readDeadline := rfl
@[simp] theorem raiseTransportError_transportBaud (c : Cause) (s : State) :
    (raiseTransportError c s).transportBaud = s.transportBaud := rfl
@[simp] theorem raiseTransportError_port (c : Cause) (s : State) :
    (raiseTransportError c s).port = s.port := rfl
@[simp] theorem raiseTransportError_taken (c : Cause) (s : State) :
    (raiseTransportError c s).taken = s.taken := rfl
@[simp] theorem raiseTransportError_sampled (c : Cause) (s : State) :
    (raiseTransportError c s).sampled = s.sampled := rfl
@[simp] theorem raiseTransportError_params (c : Cause) (s : State) :
    (raiseTransportError c s).params = s.params := rfl
@[simp] theorem raiseTransportError_script (c : Cause) (s : State) :
    (raiseTransportError c s).script = s.script := rfl

@[simp] theorem refuse_fsm (op : BitVec 4) (c : RefuseCode) (s : State) : (refuse op c s).fsm = .done := rfl
@[simp] theorem refuse_opQ (op : BitVec 4) (c : RefuseCode) (s : State) : (refuse op c s).opQ = op := rfl
@[simp] theorem refuse_frame (op : BitVec 4) (c : RefuseCode) (s : State) :
    (refuse op c s).frame = s.frame := rfl
@[simp] theorem refuse_rbuf (op : BitVec 4) (c : RefuseCode) (s : State) :
    (refuse op c s).rbuf = s.rbuf := rfl
@[simp] theorem refuse_res (op : BitVec 4) (c : RefuseCode) (s : State) :
    (refuse op c s).res = resultRefused c := rfl
@[simp] theorem refuse_tx (op : BitVec 4) (c : RefuseCode) (s : State) : (refuse op c s).tx = s.tx := rfl
@[simp] theorem refuse_rx (op : BitVec 4) (c : RefuseCode) (s : State) : (refuse op c s).rx = s.rx := rfl
@[simp] theorem refuse_now (op : BitVec 4) (c : RefuseCode) (s : State) : (refuse op c s).now = s.now := rfl
@[simp] theorem refuse_readDeadline (op : BitVec 4) (c : RefuseCode) (s : State) :
    (refuse op c s).readDeadline = s.readDeadline := rfl
@[simp] theorem refuse_transportBaud (op : BitVec 4) (c : RefuseCode) (s : State) :
    (refuse op c s).transportBaud = s.transportBaud := rfl
@[simp] theorem refuse_port (op : BitVec 4) (c : RefuseCode) (s : State) :
    (refuse op c s).port = s.port := rfl
@[simp] theorem refuse_taken (op : BitVec 4) (c : RefuseCode) (s : State) :
    (refuse op c s).taken = s.taken := rfl
@[simp] theorem refuse_sampled (op : BitVec 4) (c : RefuseCode) (s : State) :
    (refuse op c s).sampled = s.sampled := rfl
@[simp] theorem refuse_params (op : BitVec 4) (c : RefuseCode) (s : State) :
    (refuse op c s).params = s.params := rfl
@[simp] theorem refuse_script (op : BitVec 4) (c : RefuseCode) (s : State) :
    (refuse op c s).script = s.script := rfl

@[simp] theorem accept_fsm (op : OpTag) (p : Payload) (s : State) : (accept op p s).fsm = .write := rfl
@[simp] theorem accept_opQ (op : OpTag) (p : Payload) (s : State) : (accept op p s).opQ = op.code := rfl
@[simp] theorem accept_frame (op : OpTag) (p : Payload) (s : State) :
    (accept op p s).frame = frameEncode p := rfl
@[simp] theorem accept_rbuf (op : OpTag) (p : Payload) (s : State) : (accept op p s).rbuf = s.rbuf := rfl
@[simp] theorem accept_res (op : OpTag) (p : Payload) (s : State) : (accept op p s).res = s.res := rfl
@[simp] theorem accept_tx (op : OpTag) (p : Payload) (s : State) : (accept op p s).tx = s.tx := rfl
@[simp] theorem accept_rx (op : OpTag) (p : Payload) (s : State) : (accept op p s).rx = s.rx := rfl
@[simp] theorem accept_now (op : OpTag) (p : Payload) (s : State) : (accept op p s).now = s.now := rfl
@[simp] theorem accept_readDeadline (op : OpTag) (p : Payload) (s : State) :
    (accept op p s).readDeadline = s.readDeadline := rfl
@[simp] theorem accept_transportBaud (op : OpTag) (p : Payload) (s : State) :
    (accept op p s).transportBaud = s.transportBaud := rfl
@[simp] theorem accept_port (op : OpTag) (p : Payload) (s : State) : (accept op p s).port = s.port := rfl
@[simp] theorem accept_taken (op : OpTag) (p : Payload) (s : State) : (accept op p s).taken = s.taken := rfl
@[simp] theorem accept_sampled (op : OpTag) (p : Payload) (s : State) :
    (accept op p s).sampled = s.sampled := rfl
@[simp] theorem accept_params (op : OpTag) (p : Payload) (s : State) :
    (accept op p s).params = s.params := rfl
@[simp] theorem accept_script (op : OpTag) (p : Payload) (s : State) :
    (accept op p s).script = s.script := rfl

@[simp] theorem issueRead_fsm (s : State) : (issueRead s).fsm = .read := rfl
@[simp] theorem issueRead_opQ (s : State) : (issueRead s).opQ = s.opQ := rfl
@[simp] theorem issueRead_frame (s : State) : (issueRead s).frame = s.frame := rfl
@[simp] theorem issueRead_rbuf (s : State) : (issueRead s).rbuf = s.rbuf := rfl
@[simp] theorem issueRead_res (s : State) : (issueRead s).res = s.res := rfl
@[simp] theorem issueRead_tx (s : State) : (issueRead s).tx = s.tx := rfl
@[simp] theorem issueRead_rx (s : State) : (issueRead s).rx = s.rx := rfl
@[simp] theorem issueRead_now (s : State) : (issueRead s).now = s.now := rfl
@[simp] theorem issueRead_readDeadline (s : State) :
    (issueRead s).readDeadline = s.now + s.params.readTimeout := rfl
@[simp] theorem issueRead_transportBaud (s : State) : (issueRead s).transportBaud = s.transportBaud := rfl
@[simp] theorem issueRead_port (s : State) : (issueRead s).port = s.port := rfl
@[simp] theorem issueRead_taken (s : State) : (issueRead s).taken = s.taken := rfl
@[simp] theorem issueRead_sampled (s : State) : (issueRead s).sampled = s.sampled := rfl
@[simp] theorem issueRead_params (s : State) : (issueRead s).params = s.params := rfl
@[simp] theorem issueRead_script (s : State) : (issueRead s).script = s.script := rfl

@[simp] theorem clearPort_fsm (s : State) : (clearPort s).fsm = s.fsm := rfl
@[simp] theorem clearPort_opQ (s : State) : (clearPort s).opQ = s.opQ := rfl
@[simp] theorem clearPort_frame (s : State) : (clearPort s).frame = s.frame := rfl
@[simp] theorem clearPort_rbuf (s : State) : (clearPort s).rbuf = s.rbuf := rfl
@[simp] theorem clearPort_res (s : State) : (clearPort s).res = s.res := rfl
@[simp] theorem clearPort_tx (s : State) : (clearPort s).tx = s.tx := rfl
@[simp] theorem clearPort_rx (s : State) : (clearPort s).rx = s.rx := rfl
@[simp] theorem clearPort_now (s : State) : (clearPort s).now = s.now := rfl
@[simp] theorem clearPort_readDeadline (s : State) : (clearPort s).readDeadline = s.readDeadline := rfl
@[simp] theorem clearPort_transportBaud (s : State) : (clearPort s).transportBaud = s.transportBaud := rfl
@[simp] theorem clearPort_port (s : State) : (clearPort s).port = .quiet := rfl
@[simp] theorem clearPort_taken (s : State) : (clearPort s).taken = s.taken := rfl
@[simp] theorem clearPort_sampled (s : State) : (clearPort s).sampled = s.sampled := rfl
@[simp] theorem clearPort_params (s : State) : (clearPort s).params = s.params := rfl
@[simp] theorem clearPort_script (s : State) : (clearPort s).script = s.script := rfl

@[simp] theorem readFull_fsm (decode : ReplyWord → Result) (r : ReplyWord) (s : State) :
    (readFull decode r s).fsm = .done := rfl
@[simp] theorem readFull_opQ (decode : ReplyWord → Result) (r : ReplyWord) (s : State) :
    (readFull decode r s).opQ = s.opQ := rfl
@[simp] theorem readFull_frame (decode : ReplyWord → Result) (r : ReplyWord) (s : State) :
    (readFull decode r s).frame = s.frame := rfl
@[simp] theorem readFull_rbuf (decode : ReplyWord → Result) (r : ReplyWord) (s : State) :
    (readFull decode r s).rbuf = r := rfl
@[simp] theorem readFull_res (decode : ReplyWord → Result) (r : ReplyWord) (s : State) :
    (readFull decode r s).res = decode r := rfl
@[simp] theorem readFull_tx (decode : ReplyWord → Result) (r : ReplyWord) (s : State) :
    (readFull decode r s).tx = s.tx := rfl
@[simp] theorem readFull_rx (decode : ReplyWord → Result) (r : ReplyWord) (s : State) :
    (readFull decode r s).rx = s.rx := rfl
@[simp] theorem readFull_now (decode : ReplyWord → Result) (r : ReplyWord) (s : State) :
    (readFull decode r s).now = s.now := rfl
@[simp] theorem readFull_readDeadline (decode : ReplyWord → Result) (r : ReplyWord) (s : State) :
    (readFull decode r s).readDeadline = s.readDeadline := rfl
@[simp] theorem readFull_transportBaud (decode : ReplyWord → Result) (r : ReplyWord) (s : State) :
    (readFull decode r s).transportBaud = s.transportBaud := rfl
@[simp] theorem readFull_port (decode : ReplyWord → Result) (r : ReplyWord) (s : State) :
    (readFull decode r s).port = s.port := rfl
@[simp] theorem readFull_taken (decode : ReplyWord → Result) (r : ReplyWord) (s : State) :
    (readFull decode r s).taken = s.taken := rfl
@[simp] theorem readFull_sampled (decode : ReplyWord → Result) (r : ReplyWord) (s : State) :
    (readFull decode r s).sampled = s.sampled := rfl
@[simp] theorem readFull_params (decode : ReplyWord → Result) (r : ReplyWord) (s : State) :
    (readFull decode r s).params = s.params := rfl
@[simp] theorem readFull_script (decode : ReplyWord → Result) (r : ReplyWord) (s : State) :
    (readFull decode r s).script = s.script := rfl

@[simp] theorem takeResult_fsm (s : State) : (takeResult s).fsm = .idle := rfl
@[simp] theorem takeResult_opQ (s : State) : (takeResult s).opQ = s.opQ := rfl
@[simp] theorem takeResult_frame (s : State) : (takeResult s).frame = s.frame := rfl
@[simp] theorem takeResult_rbuf (s : State) : (takeResult s).rbuf = s.rbuf := rfl
@[simp] theorem takeResult_res (s : State) : (takeResult s).res = s.res := rfl
@[simp] theorem takeResult_tx (s : State) : (takeResult s).tx = s.tx := rfl
@[simp] theorem takeResult_rx (s : State) : (takeResult s).rx = s.rx := rfl
@[simp] theorem takeResult_now (s : State) : (takeResult s).now = s.now := rfl
@[simp] theorem takeResult_readDeadline (s : State) : (takeResult s).readDeadline = s.readDeadline := rfl
@[simp] theorem takeResult_transportBaud (s : State) : (takeResult s).transportBaud = s.transportBaud := rfl
@[simp] theorem takeResult_port (s : State) : (takeResult s).port = s.port := rfl
@[simp] theorem takeResult_taken (s : State) : (takeResult s).taken = s.taken ++ [s.res] := rfl
@[simp] theorem takeResult_sampled (s : State) : (takeResult s).sampled = s.sampled := rfl
@[simp] theorem takeResult_params (s : State) : (takeResult s).params = s.params := rfl
@[simp] theorem takeResult_script (s : State) : (takeResult s).script = s.script := rfl

@[simp] theorem resetRegisters_fsm (s : State) : (resetRegisters s).fsm = .idle := rfl
@[simp] theorem resetRegisters_opQ (s : State) : (resetRegisters s).opQ = 0x0#4 := rfl
@[simp] theorem resetRegisters_frame (s : State) : (resetRegisters s).frame = 0#64 := rfl
@[simp] theorem resetRegisters_rbuf (s : State) : (resetRegisters s).rbuf = 0#40 := rfl
@[simp] theorem resetRegisters_res (s : State) : (resetRegisters s).res = Result.zero := rfl
@[simp] theorem resetRegisters_tx (s : State) : (resetRegisters s).tx = s.tx := rfl
@[simp] theorem resetRegisters_rx (s : State) : (resetRegisters s).rx = s.rx := rfl
@[simp] theorem resetRegisters_now (s : State) : (resetRegisters s).now = s.now := rfl
@[simp] theorem resetRegisters_readDeadline (s : State) :
    (resetRegisters s).readDeadline = s.readDeadline := rfl
@[simp] theorem resetRegisters_transportBaud (s : State) :
    (resetRegisters s).transportBaud = s.transportBaud := rfl
@[simp] theorem resetRegisters_port (s : State) : (resetRegisters s).port = .quiet := rfl
@[simp] theorem resetRegisters_taken (s : State) : (resetRegisters s).taken = s.taken := rfl
@[simp] theorem resetRegisters_sampled (s : State) : (resetRegisters s).sampled = s.sampled := rfl
@[simp] theorem resetRegisters_params (s : State) : (resetRegisters s).params = s.params := rfl
@[simp] theorem resetRegisters_script (s : State) : (resetRegisters s).script = s.script := rfl

@[simp] theorem sendPrefix_fsm (k : Nat) (s : State) : (sendPrefix k s).fsm = s.fsm := rfl
@[simp] theorem sendPrefix_opQ (k : Nat) (s : State) : (sendPrefix k s).opQ = s.opQ := rfl
@[simp] theorem sendPrefix_frame (k : Nat) (s : State) : (sendPrefix k s).frame = s.frame := rfl
@[simp] theorem sendPrefix_rbuf (k : Nat) (s : State) : (sendPrefix k s).rbuf = s.rbuf := rfl
@[simp] theorem sendPrefix_res (k : Nat) (s : State) : (sendPrefix k s).res = s.res := rfl
@[simp] theorem sendPrefix_tx (k : Nat) (s : State) :
    (sendPrefix k s).tx = s.tx ++ (frameBytes s.frame).take k := rfl
@[simp] theorem sendPrefix_rx (k : Nat) (s : State) : (sendPrefix k s).rx = s.rx := rfl
@[simp] theorem sendPrefix_now (k : Nat) (s : State) : (sendPrefix k s).now = s.now := rfl
@[simp] theorem sendPrefix_readDeadline (k : Nat) (s : State) :
    (sendPrefix k s).readDeadline = s.readDeadline := rfl
@[simp] theorem sendPrefix_transportBaud (k : Nat) (s : State) :
    (sendPrefix k s).transportBaud = s.transportBaud := rfl
@[simp] theorem sendPrefix_port (k : Nat) (s : State) : (sendPrefix k s).port = s.port := rfl
@[simp] theorem sendPrefix_taken (k : Nat) (s : State) : (sendPrefix k s).taken = s.taken := rfl
@[simp] theorem sendPrefix_sampled (k : Nat) (s : State) : (sendPrefix k s).sampled = s.sampled := rfl
@[simp] theorem sendPrefix_params (k : Nat) (s : State) : (sendPrefix k s).params = s.params := rfl
@[simp] theorem sendPrefix_script (k : Nat) (s : State) : (sendPrefix k s).script = s.script := rfl

@[simp] theorem dropReceived_fsm (j : Nat) (s : State) : (dropReceived j s).fsm = s.fsm := rfl
@[simp] theorem dropReceived_opQ (j : Nat) (s : State) : (dropReceived j s).opQ = s.opQ := rfl
@[simp] theorem dropReceived_frame (j : Nat) (s : State) : (dropReceived j s).frame = s.frame := rfl
@[simp] theorem dropReceived_rbuf (j : Nat) (s : State) : (dropReceived j s).rbuf = s.rbuf := rfl
@[simp] theorem dropReceived_res (j : Nat) (s : State) : (dropReceived j s).res = s.res := rfl
@[simp] theorem dropReceived_tx (j : Nat) (s : State) : (dropReceived j s).tx = s.tx := rfl
@[simp] theorem dropReceived_rx (j : Nat) (s : State) : (dropReceived j s).rx = s.rx.drop j := rfl
@[simp] theorem dropReceived_now (j : Nat) (s : State) : (dropReceived j s).now = s.now := rfl
@[simp] theorem dropReceived_readDeadline (j : Nat) (s : State) :
    (dropReceived j s).readDeadline = s.readDeadline := rfl
@[simp] theorem dropReceived_transportBaud (j : Nat) (s : State) :
    (dropReceived j s).transportBaud = s.transportBaud := rfl
@[simp] theorem dropReceived_port (j : Nat) (s : State) : (dropReceived j s).port = s.port := rfl
@[simp] theorem dropReceived_taken (j : Nat) (s : State) : (dropReceived j s).taken = s.taken := rfl
@[simp] theorem dropReceived_sampled (j : Nat) (s : State) : (dropReceived j s).sampled = s.sampled := rfl
@[simp] theorem dropReceived_params (j : Nat) (s : State) : (dropReceived j s).params = s.params := rfl
@[simp] theorem dropReceived_script (j : Nat) (s : State) : (dropReceived j s).script = s.script := rfl

@[simp] theorem finishWriteOk_fsm (n : Fin 9) (s : State) : (finishWriteOk n s).fsm = s.fsm := rfl
@[simp] theorem finishWriteOk_opQ (n : Fin 9) (s : State) : (finishWriteOk n s).opQ = s.opQ := rfl
@[simp] theorem finishWriteOk_frame (n : Fin 9) (s : State) : (finishWriteOk n s).frame = s.frame := rfl
@[simp] theorem finishWriteOk_rbuf (n : Fin 9) (s : State) : (finishWriteOk n s).rbuf = s.rbuf := rfl
@[simp] theorem finishWriteOk_res (n : Fin 9) (s : State) : (finishWriteOk n s).res = s.res := rfl
@[simp] theorem finishWriteOk_tx (n : Fin 9) (s : State) :
    (finishWriteOk n s).tx = s.tx ++ (frameBytes s.frame).take n.val := rfl
@[simp] theorem finishWriteOk_rx (n : Fin 9) (s : State) : (finishWriteOk n s).rx = s.rx := rfl
@[simp] theorem finishWriteOk_now (n : Fin 9) (s : State) : (finishWriteOk n s).now = s.now := rfl
@[simp] theorem finishWriteOk_readDeadline (n : Fin 9) (s : State) :
    (finishWriteOk n s).readDeadline = s.readDeadline := rfl
@[simp] theorem finishWriteOk_transportBaud (n : Fin 9) (s : State) :
    (finishWriteOk n s).transportBaud = s.transportBaud := rfl
@[simp] theorem finishWriteOk_port (n : Fin 9) (s : State) : (finishWriteOk n s).port = .wrote (.ok n) := rfl
@[simp] theorem finishWriteOk_taken (n : Fin 9) (s : State) : (finishWriteOk n s).taken = s.taken := rfl
@[simp] theorem finishWriteOk_sampled (n : Fin 9) (s : State) : (finishWriteOk n s).sampled = s.sampled := rfl
@[simp] theorem finishWriteOk_params (n : Fin 9) (s : State) : (finishWriteOk n s).params = s.params := rfl
@[simp] theorem finishWriteOk_script (n : Fin 9) (s : State) : (finishWriteOk n s).script = s.script := rfl

@[simp] theorem finishWriteErr_fsm (k : Fin 9) (s : State) : (finishWriteErr k s).fsm = s.fsm := rfl
@[simp] theorem finishWriteErr_opQ (k : Fin 9) (s : State) : (finishWriteErr k s).opQ = s.opQ := rfl
@[simp] theorem finishWriteErr_frame (k : Fin 9) (s : State) : (finishWriteErr k s).frame = s.frame := rfl
@[simp] theorem finishWriteErr_rbuf (k : Fin 9) (s : State) : (finishWriteErr k s).rbuf = s.rbuf := rfl
@[simp] theorem finishWriteErr_res (k : Fin 9) (s : State) : (finishWriteErr k s).res = s.res := rfl
@[simp] theorem finishWriteErr_tx (k : Fin 9) (s : State) :
    (finishWriteErr k s).tx = s.tx ++ (frameBytes s.frame).take k.val := rfl
@[simp] theorem finishWriteErr_rx (k : Fin 9) (s : State) : (finishWriteErr k s).rx = s.rx := rfl
@[simp] theorem finishWriteErr_now (k : Fin 9) (s : State) : (finishWriteErr k s).now = s.now := rfl
@[simp] theorem finishWriteErr_readDeadline (k : Fin 9) (s : State) :
    (finishWriteErr k s).readDeadline = s.readDeadline := rfl
@[simp] theorem finishWriteErr_transportBaud (k : Fin 9) (s : State) :
    (finishWriteErr k s).transportBaud = s.transportBaud := rfl
@[simp] theorem finishWriteErr_port (k : Fin 9) (s : State) : (finishWriteErr k s).port = .wrote .err := rfl
@[simp] theorem finishWriteErr_taken (k : Fin 9) (s : State) : (finishWriteErr k s).taken = s.taken := rfl
@[simp] theorem finishWriteErr_sampled (k : Fin 9) (s : State) :
    (finishWriteErr k s).sampled = s.sampled := rfl
@[simp] theorem finishWriteErr_params (k : Fin 9) (s : State) : (finishWriteErr k s).params = s.params := rfl
@[simp] theorem finishWriteErr_script (k : Fin 9) (s : State) : (finishWriteErr k s).script = s.script := rfl

@[simp] theorem finishRead_fsm (s : State) : (finishRead s).fsm = s.fsm := rfl
@[simp] theorem finishRead_opQ (s : State) : (finishRead s).opQ = s.opQ := rfl
@[simp] theorem finishRead_frame (s : State) : (finishRead s).frame = s.frame := rfl
@[simp] theorem finishRead_rbuf (s : State) : (finishRead s).rbuf = s.rbuf := rfl
@[simp] theorem finishRead_res (s : State) : (finishRead s).res = s.res := rfl
@[simp] theorem finishRead_tx (s : State) : (finishRead s).tx = s.tx := rfl
@[simp] theorem finishRead_rx (s : State) : (finishRead s).rx = s.rx.drop 5 := rfl
@[simp] theorem finishRead_now (s : State) : (finishRead s).now = returnTime s := rfl
@[simp] theorem finishRead_readDeadline (s : State) : (finishRead s).readDeadline = s.readDeadline := rfl
@[simp] theorem finishRead_transportBaud (s : State) : (finishRead s).transportBaud = s.transportBaud := rfl
@[simp] theorem finishRead_port (s : State) : (finishRead s).port = .got (.ok (s.rx.take 5)) := rfl
@[simp] theorem finishRead_taken (s : State) : (finishRead s).taken = s.taken := rfl
@[simp] theorem finishRead_sampled (s : State) : (finishRead s).sampled = s.sampled := rfl
@[simp] theorem finishRead_params (s : State) : (finishRead s).params = s.params := rfl
@[simp] theorem finishRead_script (s : State) : (finishRead s).script = s.script := rfl

@[simp] theorem finishReadErr_fsm (j : Fin 6) (s : State) : (finishReadErr j s).fsm = s.fsm := rfl
@[simp] theorem finishReadErr_opQ (j : Fin 6) (s : State) : (finishReadErr j s).opQ = s.opQ := rfl
@[simp] theorem finishReadErr_frame (j : Fin 6) (s : State) : (finishReadErr j s).frame = s.frame := rfl
@[simp] theorem finishReadErr_rbuf (j : Fin 6) (s : State) : (finishReadErr j s).rbuf = s.rbuf := rfl
@[simp] theorem finishReadErr_res (j : Fin 6) (s : State) : (finishReadErr j s).res = s.res := rfl
@[simp] theorem finishReadErr_tx (j : Fin 6) (s : State) : (finishReadErr j s).tx = s.tx := rfl
@[simp] theorem finishReadErr_rx (j : Fin 6) (s : State) : (finishReadErr j s).rx = s.rx.drop j.val := rfl
@[simp] theorem finishReadErr_now (j : Fin 6) (s : State) : (finishReadErr j s).now = s.now := rfl
@[simp] theorem finishReadErr_readDeadline (j : Fin 6) (s : State) :
    (finishReadErr j s).readDeadline = s.readDeadline := rfl
@[simp] theorem finishReadErr_transportBaud (j : Fin 6) (s : State) :
    (finishReadErr j s).transportBaud = s.transportBaud := rfl
@[simp] theorem finishReadErr_port (j : Fin 6) (s : State) : (finishReadErr j s).port = .got .err := rfl
@[simp] theorem finishReadErr_taken (j : Fin 6) (s : State) : (finishReadErr j s).taken = s.taken := rfl
@[simp] theorem finishReadErr_sampled (j : Fin 6) (s : State) : (finishReadErr j s).sampled = s.sampled := rfl
@[simp] theorem finishReadErr_params (j : Fin 6) (s : State) : (finishReadErr j s).params = s.params := rfl
@[simp] theorem finishReadErr_script (j : Fin 6) (s : State) : (finishReadErr j s).script = s.script := rfl

@[simp] theorem deviceAppend_fsm (bytes : List Byte) (s : State) : (deviceAppend bytes s).fsm = s.fsm := rfl
@[simp] theorem deviceAppend_opQ (bytes : List Byte) (s : State) : (deviceAppend bytes s).opQ = s.opQ := rfl
@[simp] theorem deviceAppend_frame (bytes : List Byte) (s : State) :
    (deviceAppend bytes s).frame = s.frame := rfl
@[simp] theorem deviceAppend_rbuf (bytes : List Byte) (s : State) :
    (deviceAppend bytes s).rbuf = s.rbuf := rfl
@[simp] theorem deviceAppend_res (bytes : List Byte) (s : State) : (deviceAppend bytes s).res = s.res := rfl
@[simp] theorem deviceAppend_tx (bytes : List Byte) (s : State) : (deviceAppend bytes s).tx = s.tx := rfl
@[simp] theorem deviceAppend_rx (bytes : List Byte) (s : State) :
    (deviceAppend bytes s).rx = s.rx ++ bytes := rfl
@[simp] theorem deviceAppend_now (bytes : List Byte) (s : State) : (deviceAppend bytes s).now = s.now := rfl
@[simp] theorem deviceAppend_readDeadline (bytes : List Byte) (s : State) :
    (deviceAppend bytes s).readDeadline = s.readDeadline := rfl
@[simp] theorem deviceAppend_transportBaud (bytes : List Byte) (s : State) :
    (deviceAppend bytes s).transportBaud = s.transportBaud := rfl
@[simp] theorem deviceAppend_port (bytes : List Byte) (s : State) :
    (deviceAppend bytes s).port = s.port := rfl
@[simp] theorem deviceAppend_taken (bytes : List Byte) (s : State) :
    (deviceAppend bytes s).taken = s.taken := rfl
@[simp] theorem deviceAppend_sampled (bytes : List Byte) (s : State) :
    (deviceAppend bytes s).sampled = s.sampled := rfl
@[simp] theorem deviceAppend_params (bytes : List Byte) (s : State) :
    (deviceAppend bytes s).params = s.params := rfl
@[simp] theorem deviceAppend_script (bytes : List Byte) (s : State) :
    (deviceAppend bytes s).script = s.script := rfl

end Sys2Proof.Laws
end

