-- ==== Sys2Proof/Laws/Ops.lean ====
section
/-! SUPPORT. What each shared operation can do, said once: accepting, completing a write, completing a read, the two
shapes of an operation, and one transition of any instruction. -/

namespace Sys2Proof.Laws

open Machine

/-- Acceptance ends in `WRITE` with the frame written, or in `DONE` with the refusal (R66 T1, T2). -/
theorem acceptChecked_cases (op : OpTag) (check : Option RefuseCode) (p : Payload) (s : State) :
    (check = none ∧ acceptChecked op check p s = accept op p s) ∨
      ∃ c, check = some c ∧ acceptChecked op check p s = refuse op.code c s := by
  cases check with
  | none => exact .inl ⟨rfl, rfl⟩
  | some c => exact .inr ⟨c, rfl, rfl⟩

/-- A completed write of an operation that awaits a reply: the read is issued, or the error raised (R70). -/
theorem writeDoneExchange_cases (w : WriteResult) (s : State) :
    (w = .ok 8 ∧ writeDoneExchange w s = issueRead s) ∨
      (∃ n : Fin 9, w = .ok n ∧ n.val < 8 ∧ writeDoneExchange w s = raiseTransportError .writeShort s) ∨
      (w = .err ∧ writeDoneExchange w s = raiseTransportError .writeErr s) := by
  cases w with
  | err => exact .inr (.inr ⟨rfl, rfl⟩)
  | ok n =>
    by_cases h : n.val = 8
    · exact .inl ⟨congrArg _ (Fin.ext h), by simp [writeDoneExchange, h]⟩
    · exact .inr (.inl ⟨n, rfl, by omega, by simp [writeDoneExchange, h]⟩)

/-- A completed write of `RAW_SEND` (R71). -/
theorem writeDoneRawSend_cases (w : WriteResult) (s : State) :
    (w = .ok 8 ∧ writeDoneRawSend w s = emit resultSent s) ∨
      (∃ n : Fin 9, w = .ok n ∧ n.val < 8 ∧ writeDoneRawSend w s = raiseTransportError .writeShort s) ∨
      (w = .err ∧ writeDoneRawSend w s = raiseTransportError .writeErr s) := by
  cases w with
  | err => exact .inr (.inr ⟨rfl, rfl⟩)
  | ok n =>
    by_cases h : n.val = 8
    · exact .inl ⟨congrArg _ (Fin.ext h), by simp [writeDoneRawSend, h]⟩
    · exact .inr (.inl ⟨n, rfl, by omega, by simp [writeDoneRawSend, h]⟩)

/-- A completed read: the first five bytes decoded, or one of the three errors (R74, R75). -/
theorem readDone_cases (decode : ReplyWord → Result) (r : ReadResult) (s : State) :
    (∃ r0 r1 r2 r3 r4 more, r = .ok (r0 :: r1 :: r2 :: r3 :: r4 :: more) ∧
        readDone decode r s = readFull decode (packReply r0 r1 r2 r3 r4) s) ∨
      (r = .ok [] ∧ readDone decode r s = raiseTransportError .readTimeout s) ∨
      (∃ bs, r = .ok bs ∧ 1 ≤ bs.length ∧ bs.length ≤ 4 ∧
        readDone decode r s = raiseTransportError .readShort s) ∨
      (r = .err ∧ readDone decode r s = raiseTransportError .readErr s) := by
  match r with
  | .err => simp [readDone]
  | .ok [] => simp [readDone]
  | .ok [_] => simp [readDone]
  | .ok [_, _] => simp [readDone]
  | .ok [_, _, _] => simp [readDone]
  | .ok [_, _, _, _] => simp [readDone]
  | .ok (r0 :: r1 :: r2 :: r3 :: r4 :: more) =>
    exact .inl ⟨r0, r1, r2, r3, r4, more, rfl, rfl⟩

/-- One transition of an operation that awaits a reply (R66). -/
theorem exchange_cases {op : OpTag} {check : Option RefuseCode} {p : Payload} {decode : ReplyWord → Result}
    {s t : State} (h : exchange op check p decode s = .next t) :
    (s.fsm = .idle ∧ t = acceptChecked op check p s) ∨
      (∃ w, s.fsm = .write ∧ s.port = .wrote w ∧ t = writeDoneExchange w (clearPort s)) ∨
      (∃ r, s.fsm = .read ∧ s.port = .got r ∧ t = readDone decode r (clearPort s)) ∨
      (s.fsm ≠ .idle ∧ t = s) := by
  unfold exchange at h
  split at h
  · exact .inl ⟨‹_›, by simpa using h.symm⟩
  · split at h
    · exact .inr (.inl ⟨_, ‹_›, ‹_›, by simpa using h.symm⟩)
    · exact .inr (.inr (.inr ⟨by simp [*], by simpa using h.symm⟩))
  · split at h
    · exact .inr (.inr (.inl ⟨_, ‹_›, ‹_›, by simpa using h.symm⟩))
    · exact .inr (.inr (.inr ⟨by simp [*], by simpa using h.symm⟩))
  · exact .inr (.inr (.inr ⟨by simp [*], by simpa using h.symm⟩))

/-- One transition of a send-only operation (R66). -/
theorem sendOnly_cases {op : OpTag} {p : Payload} {fin : WriteResult → State → State} {s t : State}
    (h : sendOnly op p fin s = .next t) :
    (s.fsm = .idle ∧ t = accept op p s) ∨
      (∃ w, s.fsm = .write ∧ s.port = .wrote w ∧ t = fin w (clearPort s)) ∨
      (s.fsm ≠ .idle ∧ t = s) := by
  unfold sendOnly at h
  split at h
  · exact .inl ⟨‹_›, by simpa using h.symm⟩
  · split at h
    · exact .inr (.inl ⟨_, ‹_›, ‹_›, by simpa using h.symm⟩)
    · exact .inr (.inr ⟨by simp [*], by simpa using h.symm⟩)
  · exact .inr (.inr ⟨by simp [*], by simpa using h.symm⟩)
  · exact .inr (.inr ⟨by simp [*], by simpa using h.symm⟩)

/-- An operation that awaits a reply always answers a next state. -/
theorem exchange_next (op : OpTag) (check : Option RefuseCode) (p : Payload) (decode : ReplyWord → Result)
    (s : State) : ∃ t, exchange op check p decode s = .next t := by
  unfold exchange
  split
  · exact ⟨_, rfl⟩
  · split <;> exact ⟨_, rfl⟩
  · split <;> exact ⟨_, rfl⟩
  · exact ⟨_, rfl⟩

/-- A send-only operation always answers a next state. -/
theorem sendOnly_next (op : OpTag) (p : Payload) (fin : WriteResult → State → State) (s : State) :
    ∃ t, sendOnly op p fin s = .next t := by
  unfold sendOnly
  split
  · exact ⟨_, rfl⟩
  · split <;> exact ⟨_, rfl⟩
  · exact ⟨_, rfl⟩
  · exact ⟨_, rfl⟩

/-- The argument check of an instruction (R68 lines 3 to 5); lines 1 and 2 name no instruction. -/
def argError : Instr → Option RefuseCode
  | .enrollStart _ level => checkLevel level
  | .enrollIntermediate _ level => checkLevel level
  | .enrollEnd _ level => checkLevel level
  | .setBaudRate new => checkBaud new
  | .setCompareLevel lvl => checkCompareLevel lvl
  | _ => none

/-- The payload of an instruction (R53). -/
def payloadOf : Instr → Payload
  | .enrollStart uid level => payloadEnroll .first uid level
  | .enrollIntermediate uid level => payloadEnroll .intermediate uid level
  | .enrollEnd uid level => payloadEnroll .last uid level
  | .removeOne uid => payloadUid 0x04#8 uid
  | .removeAll => payloadBare 0x05#8
  | .getUserCount => payloadBare 0x09#8
  | .getUserLevel uid => payloadUid 0x0A#8 uid
  | .compareOne uid => payloadUid 0x0B#8 uid
  | .authenticate => payloadBare 0x0C#8
  | .setBaudRate new => payloadBaud new
  | .setCompareLevel lvl => payloadCompareLevel lvl
  | .sleep => payloadBare 0x2C#8
  | .getNextAvailableId lo hi => payloadRange lo hi
  | .rawExch cmd params => payloadRaw cmd params
  | .rawSend cmd params => payloadRaw cmd params

/-- The decoder of an instruction's reply; never called for the two that read none. -/
def decoderOf (op : OpTag) (r : ReplyWord) : Result := (decodeReply op r).getD resultSent

/-- Every instruction that awaits a reply is `exchange` at its own tag, check, payload and decoder. -/
theorem exec_eq_exchange (i : Instr) (h : i.tag.expectsReply = true) (s : State) :
    exec i s = exchange i.tag (argError i) (payloadOf i) (decoderOf i.tag) s := by
  cases i <;> first | rfl | simp [Instr.tag, OpTag.expectsReply] at h

/-- One transition of any instruction answers a next state. -/
theorem exec_next (i : Instr) (s : State) : ∃ t, exec i s = .next t := by
  cases i <;> first | exact exchange_next _ _ _ _ s | exact sendOnly_next _ _ _ s

/-- The code of a rate is one that SET_BAUD_RATE sends, and every such byte is the code of a rate (R5, R68, R86). -/
theorem sendableBaud_iff_code (b : Byte) : sendableBaud b = true ↔ ∃ r : Rate, r.code = b := by
  constructor
  · intro h
    simp only [sendableBaud, Bool.or_eq_true, decide_eq_true_eq] at h
    rcases h with (((rfl | rfl) | rfl) | rfl) | rfl
    exacts [⟨.b9600, rfl⟩, ⟨.b19200, rfl⟩, ⟨.b38400, rfl⟩, ⟨.b57600, rfl⟩, ⟨.b115200, rfl⟩]
  · rintro ⟨r, rfl⟩
    cases r <;> rfl

/-- A well-formed instruction passes its argument check, and no other does. -/
theorem argError_eq_none_iff (i : Instr) : argError i = none ↔ i.wellFormed = true := by
  cases i <;> simp [argError, Instr.wellFormed, checkLevel, checkBaud, checkCompareLevel]

/-- A 16-bit value followed by another: the bytes of the parameter word. -/
theorem paramByte_halves (a b : Word16) :
    paramByte (a ++ b) 0 = hi8 a ∧ paramByte (a ++ b) 1 = lo8 a ∧
      paramByte (a ++ b) 2 = hi8 b ∧ paramByte (a ++ b) 3 = lo8 b := by
  refine ⟨?_, ?_, ?_, ?_⟩ <;>
  · ext i hi
    simp only [paramByte, hi8, lo8, BitVec.getElem_extractLsb', BitVec.getLsbD_append]
    grind

/-- A 16-bit value followed by two bytes: the bytes of the parameter word. -/
theorem paramByte_half_bytes (a : Word16) (b c : Byte) :
    paramByte (a ++ b ++ c) 0 = hi8 a ∧ paramByte (a ++ b ++ c) 1 = lo8 a ∧
      paramByte (a ++ b ++ c) 2 = b ∧ paramByte (a ++ b ++ c) 3 = c := by
  refine ⟨?_, ?_, ?_, ?_⟩ <;>
  · ext i hi
    simp only [paramByte, hi8, lo8, BitVec.getElem_extractLsb', BitVec.getLsbD_append]
    grind

end Sys2Proof.Laws
end

