-- ==== Sys2Proof/Laws/Events.lean ====
section
/-! SUPPORT. What a step can do, said once: one transition of any instruction, the delivery of a completion, the
presenting of a command, and the outcome of an event. -/

namespace Sys2Proof.Laws

open Machine

/-- Every send-only instruction is `sendOnly` at its own tag and payload, with one of the two completion rules. -/
theorem exec_eq_sendOnly (i : Instr) (h : i.tag.expectsReply = false) (s : State) :
    exec i s = sendOnly i.tag (payloadOf i) writeDoneSleep s ∨
      exec i s = sendOnly i.tag (payloadOf i) writeDoneRawSend s := by
  cases i <;> first | exact .inl rfl | exact .inr rfl | simp [Instr.tag, OpTag.expectsReply] at h

/-- One transition of any instruction, by phase: accepted, refused, the read issued, sent, a write's error, a reply
decoded, a read's error, or waiting (R66). -/
theorem exec_cases {i : Instr} {s t : State} (h : exec i s = .next t) :
    (s.fsm = .idle ∧ t = accept i.tag (payloadOf i) s) ∨
    (∃ c, s.fsm = .idle ∧ argError i = some c ∧ t = refuse i.tag.code c s) ∨
    (s.fsm = .write ∧ s.port = .wrote (.ok 8) ∧ i.tag.expectsReply = true ∧ t = issueRead (clearPort s)) ∨
    (∃ w, s.fsm = .write ∧ s.port = .wrote w ∧ i.tag.expectsReply = false ∧ t = emit resultSent (clearPort s)) ∨
    (∃ w c, s.fsm = .write ∧ s.port = .wrote w ∧ t = raiseTransportError c (clearPort s)) ∨
    (∃ r0 r1 r2 r3 r4 more, s.fsm = .read ∧ s.port = .got (.ok (r0 :: r1 :: r2 :: r3 :: r4 :: more)) ∧
      i.tag.expectsReply = true ∧
      t = readFull (decoderOf i.tag) (packReply r0 r1 r2 r3 r4) (clearPort s)) ∨
    (∃ r c, s.fsm = .read ∧ s.port = .got r ∧ t = raiseTransportError c (clearPort s)) ∨
    (s.fsm ≠ .idle ∧ t = s) := by
  by_cases he : i.tag.expectsReply = true
  · rw [exec_eq_exchange i he] at h
    rcases exchange_cases h with ⟨hi, rfl⟩ | ⟨w, hw, hp, rfl⟩ | ⟨r, hr, hp, rfl⟩ | ⟨a, rfl⟩
    · rcases acceptChecked_cases i.tag (argError i) (payloadOf i) s with ⟨_, e⟩ | ⟨c, hc, e⟩
      · exact .inl ⟨hi, e⟩
      · exact .inr (.inl ⟨c, hi, hc, e⟩)
    · rcases writeDoneExchange_cases w (clearPort s) with ⟨rfl, e⟩ | ⟨n, rfl, _, e⟩ | ⟨rfl, e⟩
      · exact .inr (.inr (.inl ⟨hw, hp, he, e⟩))
      · exact .inr (.inr (.inr (.inr (.inl ⟨_, _, hw, hp, e⟩))))
      · exact .inr (.inr (.inr (.inr (.inl ⟨_, _, hw, hp, e⟩))))
    · rcases readDone_cases (decoderOf i.tag) r (clearPort s) with
        ⟨r0, r1, r2, r3, r4, m, rfl, e⟩ | ⟨rfl, e⟩ | ⟨bs, rfl, _, _, e⟩ | ⟨rfl, e⟩
      · exact .inr (.inr (.inr (.inr (.inr (.inl ⟨r0, r1, r2, r3, r4, m, hr, hp, he, e⟩)))))
      all_goals exact .inr (.inr (.inr (.inr (.inr (.inr (.inl ⟨_, _, hr, hp, e⟩))))))
    · exact .inr (.inr (.inr (.inr (.inr (.inr (.inr ⟨a, rfl⟩))))))
  · have he : i.tag.expectsReply = false := by simpa using he
    rcases exec_eq_sendOnly i he s with e | e <;> rw [e] at h <;>
      rcases sendOnly_cases h with ⟨hi, rfl⟩ | ⟨w, hw, hp, rfl⟩ | ⟨a, rfl⟩
    · exact .inl ⟨hi, rfl⟩
    · exact .inr (.inr (.inr (.inl ⟨w, hw, hp, he, rfl⟩)))
    · exact .inr (.inr (.inr (.inr (.inr (.inr (.inr ⟨a, rfl⟩))))))
    · exact .inl ⟨hi, rfl⟩
    · rcases writeDoneRawSend_cases w (clearPort s) with ⟨rfl, e⟩ | ⟨n, rfl, _, e⟩ | ⟨rfl, e⟩
      · exact .inr (.inr (.inr (.inl ⟨_, hw, hp, he, e⟩)))
      · exact .inr (.inr (.inr (.inr (.inl ⟨_, _, hw, hp, e⟩))))
      · exact .inr (.inr (.inr (.inr (.inl ⟨_, _, hw, hp, e⟩))))
    · exact .inr (.inr (.inr (.inr (.inr (.inr (.inr ⟨a, rfl⟩))))))

/-- The op tag of a defined code. -/
@[simp] theorem opTagOfCode_code (t : OpTag) : opTagOfCode t.code = some t := by cases t <;> rfl

/-- The instruction in flight is a function of `op_q` and `frame`. -/
theorem inFlight_congr {s t : State} (h1 : t.opQ = s.opQ) (h2 : t.frame = s.frame) :
    inFlight t = inFlight s := by
  simp [inFlight, h1, h2]

/-- A stage's instruction has ENROLL's tag. -/
@[simp] theorem enrollInstr_tag (stage : EnrollStage) (uid : Word16) (level : Byte) :
    (enrollInstr stage uid level).tag = .enroll := by
  cases stage <;> rfl

/-- `op_q` names the operation of the instruction in flight. -/
theorem opTagOfCode_of_inFlight {s : State} {i : Instr} (h : inFlight s = some i) :
    opTagOfCode s.opQ = some i.tag := by
  revert h
  unfold inFlight
  cases opTagOfCode s.opQ with
  | none => simp
  | some t => cases t <;> simp <;> rintro rfl <;> first | rfl | exact (enrollInstr_tag _ _ _).symm

/-- A completion is delivered as one transition of the instruction in flight. -/
theorem deliver_eq_exec {s : State} {i : Instr} (h : inFlight s = some i) : deliver s = exec i s := by
  simp [deliver, h]

/-- Delivering a completion always answers a next state. -/
theorem deliver_next (s : State) : ∃ t, deliver s = .next t := by
  unfold deliver
  split
  · exact exec_next _ _
  · exact ⟨_, rfl⟩

/-- Presenting a command: no effect while busy, else one transition of its instruction, else a refusal (R48, R67). -/
theorem presentCommand_cases {c : Command} {s t : State} (h : presentCommand c s = .next t) :
    (s.fsm ≠ .idle ∧ t = s) ∨
      (s.fsm = .idle ∧ ∃ i, decodeCommand c = .ok i ∧ exec i s = .next t) ∨
      (s.fsm = .idle ∧ ∃ r, decodeCommand c = .error r ∧ t = refuse c.op r s) := by
  unfold presentCommand at h
  split at h
  · split at h
    · exact .inr (.inl ⟨‹_›, _, ‹_›, h⟩)
    · exact .inr (.inr ⟨‹_›, _, ‹_›, by simpa using h.symm⟩)
  · exact .inl ⟨by assumption, by simpa using h.symm⟩

/-- A step with an event scheduled handles it, the event taken off the schedule. -/
theorem step_cons {s : State} {e : Event} {rest : List Event} (h : s.script = e :: rest) :
    step s = handle e { s with script := rest } := by
  simp only [step, nextEvent]
  rw [h]

/-- A step with nothing scheduled changes nothing. -/
theorem step_nil {s : State} (h : s.script = []) : step s = .next s := by
  simp only [step, nextEvent]
  rw [h]

/-- An event answers a next state, or is one of the two that stop. -/
theorem handle_next_or_stop (e : Event) (s : State) :
    (∃ t, handle e s = .next t) ∨
      (e = .sample ∧ s.fsm ≠ .done ∧ handle e s = .fault .resultNotValid) ∨
      (e = .foreign ∧ handle e s = .refused .foreignTransportUse) := by
  cases e with
  | present c =>
    left
    simp only [handle, presentCommand]
    split
    · split
      · exact exec_next _ _
      · exact ⟨_, rfl⟩
    · exact ⟨_, rfl⟩
  | take => left; simp only [handle]; split <;> exact ⟨_, rfl⟩
  | sample =>
    simp only [handle, resultPort, State.resValid]
    by_cases h : s.fsm = .done <;> simp [h]
  | foreign => exact .inr (.inr ⟨rfl, rfl⟩)
  | reset k j => exact .inl ⟨_, rfl⟩
  | deviceSends bytes => exact .inl ⟨_, rfl⟩
  | configure rate => exact .inl ⟨_, rfl⟩
  | elapse dt =>
    left
    simp only [handle, passTime]
    split
    · exact deliver_next _
    · split
      · exact deliver_next _
      · exact ⟨_, rfl⟩
  | writeOk n => left; simp only [handle]; split <;> first | exact deliver_next _ | exact ⟨_, rfl⟩
  | writeErr k => left; simp only [handle]; split <;> first | exact deliver_next _ | exact ⟨_, rfl⟩
  | readReturn => left; simp only [handle]; split <;> first | exact deliver_next _ | exact ⟨_, rfl⟩
  | readErr j => left; simp only [handle]; split <;> first | exact deliver_next _ | exact ⟨_, rfl⟩

end Sys2Proof.Laws
end

