-- ==== Sys2Proof/Laws/PerInstr.lean ====
section
/-! SUPPORT. Statements about every instruction as syntax, one lemma per constructor: presenting an instruction on
the command port and reading the port back gives that instruction (`30_encoding.md` R49, R50). -/

namespace Sys2Proof.Laws.CommandCodec

open Machine

/-- The command-port fields of an instruction decode to it. -/
def Statement (i : Instr) : Prop := decodeCommand (encodeCommand i) = .ok i

theorem enrollStart (uid : Word16) (level : Byte) : Statement (.enrollStart uid level) := rfl

theorem enrollIntermediate (uid : Word16) (level : Byte) : Statement (.enrollIntermediate uid level) := rfl

theorem enrollEnd (uid : Word16) (level : Byte) : Statement (.enrollEnd uid level) := rfl

theorem removeOne (uid : Word16) : Statement (.removeOne uid) := rfl

theorem removeAll : Statement (.removeAll) := rfl

theorem getUserCount : Statement (.getUserCount) := rfl

theorem getUserLevel (uid : Word16) : Statement (.getUserLevel uid) := rfl

theorem compareOne (uid : Word16) : Statement (.compareOne uid) := rfl

theorem authenticate : Statement (.authenticate) := rfl

theorem setBaudRate (new : Byte) : Statement (.setBaudRate new) := rfl

theorem setCompareLevel (lvl : Byte) : Statement (.setCompareLevel lvl) := rfl

theorem sleep : Statement (.sleep) := rfl

theorem getNextAvailableId (lo : Word16) (hi : Word16) : Statement (.getNextAvailableId lo hi) := rfl

theorem rawExch (cmd : Byte) (params : ParamWord) : Statement (.rawExch cmd params) := rfl

theorem rawSend (cmd : Byte) (params : ParamWord) : Statement (.rawSend cmd params) := rfl

end Sys2Proof.Laws.CommandCodec

/-- The command codec for every instruction. -/
theorem Sys2Proof.Laws.decodeCommand_encodeCommand (i : Sys2Proof.Instr) :
    Sys2Proof.decodeCommand (Sys2Proof.encodeCommand i) = .ok i := by
  cases i <;> rfl
end

