-- ==== Sys2Proof/Tests/Slice0.lean ====
section
/-! SUPPORT. The model's own tests. Expected results come from the spec: `95_test_vectors.md` V1 to V5 and P1 to
P6, and the numbered rules; each test names its source. The last part shows, for every statement with hypotheses, a
concrete state and operands that meet them, at the ends of each clause's range. -/

namespace Sys2Proof.Tests

open Machine Claims

/-! ## Helpers -/

/-- The next state of an outcome. -/
def after (o : Host.Outcome State Fault Refusal) : Option State :=
  match o with
  | .next s => some s
  | .fault _ => none
  | .refused _ => none

/-- `IDLE` with one event to come. -/
def idleThen (e : Event) : State := { State.reset with script := [e] }

/-- `DONE` with a count held, and one event to come. -/
def doneThen (e : Event) : State :=
  { State.reset with fsm := .done, opQ := 0x5#4, res := ⟨.count, 0#8, 1#16, 0x0000010000#40⟩,
                     rbuf := 0x0000010000#40, script := [e] }

/-- `WRITE` for the command of `i`, and one event to come. -/
def writeThen (i : Instr) (e : Event) : State :=
  { State.reset with fsm := .write, opQ := i.tag.code, frame := encode i, script := [e] }

/-- `READ` for the command of `i` until 10000 ms, with these bytes received, and one event to come. -/
def readThen (i : Instr) (rx : List Byte) (e : Event) : State :=
  { State.reset with fsm := .read, opQ := i.tag.code, frame := encode i, rx := rx, readDeadline := 10000,
                     script := [e] }

/-- The result after the next event. -/
def resultAfter (s : State) : Option Result := (after (step s)).map (·.res)

/-- The FSM state and the frame after the next event. -/
def acceptedAs (s : State) : Option (Fsm × FrameWord) := (after (step s)).map (fun t => (t.fsm, t.frame))

/-- The command-port fields that present `i`, with `op` and `s8` replaced. -/
def fields (op : BitVec 4) (s8 v8 : Byte) : Command := ⟨op, 1#16, 0#16, s8, v8, 0#8, 0#32⟩

/-! ## Well-formedness: one ill-formed term for each check -/

theorem test_wf_enrollStart_level : (Instr.enrollStart 1 0).wellFormed = false := by decide
theorem test_wf_enrollIntermediate_level : (Instr.enrollIntermediate 1 4).wellFormed = false := by decide
theorem test_wf_enrollEnd_level : (Instr.enrollEnd 1 0xFF).wellFormed = false := by decide
theorem test_wf_setCompareLevel : (Instr.setCompareLevel 10).wellFormed = false := by decide
theorem test_wf_setBaudRate_low : (Instr.setBaudRate 0).wellFormed = false := by decide
theorem test_wf_setBaudRate_high : (Instr.setBaudRate 6).wellFormed = false := by decide
theorem test_wf_ends : (Instr.enrollEnd 0xFFFF 3).wellFormed = true ∧ (Instr.setCompareLevel 9).wellFormed = true ∧
    (Instr.setCompareLevel 0).wellFormed = true ∧ (Instr.setBaudRate 5).wellFormed = true := by decide

/-! ## Decoding, one word written out from V1 for each constructor -/

theorem test_decode_enrollStart : decodeTableWord 64 0xF501012C03002FF5 = some (.enrollStart 300 3) := by decide
theorem test_decode_enrollIntermediate :
    decodeTableWord 64 0xF5020001010002F5 = some (.enrollIntermediate 1 1) := by decide
theorem test_decode_enrollEnd : decodeTableWord 64 0xF5030001010003F5 = some (.enrollEnd 1 1) := by decide
theorem test_decode_removeOne : decodeTableWord 64 0xF5040102000007F5 = some (.removeOne 0x0102) := by decide
theorem test_decode_removeAll : decodeTableWord 64 0xF5050000000005F5 = some .removeAll := by decide
theorem test_decode_getUserCount : decodeTableWord 64 0xF5090000000009F5 = some .getUserCount := by decide
theorem test_decode_getUserLevel : decodeTableWord 64 0xF50A000500000FF5 = some (.getUserLevel 5) := by decide
theorem test_decode_compareOne : decodeTableWord 64 0xF50BFFFF00000BF5 = some (.compareOne 0xFFFF) := by decide
theorem test_decode_authenticate : decodeTableWord 64 0xF50C000000000CF5 = some .authenticate := by decide
theorem test_decode_setBaudRate : decodeTableWord 64 0xF5210000050024F5 = some (.setBaudRate 5) := by decide
theorem test_decode_setCompareLevel :
    decodeTableWord 64 0xF5280009010020F5 = some (.setCompareLevel 9) := by decide
theorem test_decode_sleep : decodeTableWord 64 0xF52C000000002CF5 = some .sleep := by decide
theorem test_decode_getNextAvailableId :
    decodeTableWord 64 0xF54700010BB8F5F5 = some (.getNextAvailableId 1 3000) := by decide
theorem test_decode_rawExch : decodeTableWord 64 0xF58040201008F8F5 = some (.rawExch 0x80 0x40201008) := by decide

/-- R49: op tag `0x1` on the command port; a frame word does not name `RAW_SEND` (log entry 2). -/
theorem test_decode_rawSend :
    decodeCommand ⟨0x1, 0, 0, 0, 0, 0x2C, 0x01020304⟩ = .ok (.rawSend 0x2C 0x01020304) := rfl

/-- SET_COMPARE_LEVEL's persist flag is a fixed bit of its row: without it the frame is a raw one (R95). -/
theorem test_decode_persist_flag :
    decodeTableWord 64 0xF528000500002DF5 = some (.rawExch 0x28 0x00050000) := by decide

/-- R45: the markers. -/
theorem test_decode_lead : decodeTableWord 64 0xF4050000000005F5 = none := by decide
theorem test_decode_trail : decodeTableWord 64 0xF5050000000005F4 = none := by decide

/-- V1, with all four parameter bytes distinct; 0x47 ^ 0x12 ^ 0x34 ^ 0x56 ^ 0x78 = 0x4F. -/
theorem test_encode_v1 : encode (.getNextAvailableId 0x1234 0x5678) = 0xF547123456784FF5#64 ∧
    encode (.rawSend 0xF5 0) = 0xF5F500000000F5F5#64 ∧ encode (.setBaudRate 2) = 0xF5210000020023F5#64 ∧
    encode (.enrollStart 1 1) = 0xF5010001010001F5#64 := by decide

/-! ## Each instruction: what it sends (V1, V2), and what it makes of a reply or a completion (V3, V4) -/

theorem test_enrollStart_accept : acceptedAs (idleThen (.present (fields 0x2 1 1))) =
    some (.write, 0xF5010001010001F5#64) := by decide
theorem test_enrollStart_reply :
    resultAfter (readThen (.enrollStart 1 1) [0, 0, 0, 4, 0] .readReturn) =
      some ⟨.ack, 0x04, 0, 0x0000000400⟩ := by decide
theorem test_enrollIntermediate_accept : acceptedAs (idleThen (.present (fields 0x2 2 1))) =
    some (.write, 0xF5020001010002F5#64) := by decide
theorem test_enrollIntermediate_refused : resultAfter (idleThen (.present (fields 0x2 2 0))) =
    some ⟨.argRefused, 0x03, 0, 0⟩ := by decide
theorem test_enrollEnd_accept : acceptedAs (idleThen (.present (fields 0x2 3 1))) =
    some (.write, 0xF5030001010003F5#64) := by decide
theorem test_enrollEnd_reply :
    resultAfter (readThen (.enrollEnd 1 1) [0, 0, 0, 0x0A, 0] .readReturn) =
      some ⟨.ack, 0x0A, 0, 0x0000000A00⟩ := by decide
theorem test_removeOne_accept :
    acceptedAs (idleThen (.present ⟨0x3, 0xFFFF, 0, 0, 0, 0, 0⟩)) = some (.write, 0xF504FFFF000004F5#64) := by
  decide
theorem test_removeOne_writeErr :
    (after (step (writeThen (.removeOne 7) (.writeErr 8)))).map (fun t => (t.res, t.tx)) =
      some (⟨.transportError, 0x01, 0, 0⟩, [0xF5, 0x04, 0x00, 0x07, 0x00, 0x00, 0x03, 0xF5]) := by decide
theorem test_removeAll_reply :
    resultAfter (readThen .removeAll [5, 0, 0, 0, 0] .readReturn) = some ⟨.ack, 0x00, 0, 0x0500000000⟩ := by decide
theorem test_removeAll_accept :
    acceptedAs (idleThen (.present ⟨0x4, 0, 0, 0, 0, 0, 0⟩)) = some (.write, 0xF5050000000005F5#64) := by decide
theorem test_getUserCount_reply :
    resultAfter (readThen .getUserCount [0, 0xFF, 0xFF, 1, 0] .readReturn) =
      some ⟨.count, 0x00, 65535, 0x00FFFF0100⟩ := by decide
theorem test_getUserCount_writeShort :
    (after (step (writeThen .getUserCount (.writeOk 7)))).map (fun t => (t.res, t.tx)) =
      some (⟨.transportError, 0x02, 0, 0⟩, [0xF5, 0x09, 0, 0, 0, 0, 0x09]) := by decide
theorem test_getUserLevel_other :
    resultAfter (readThen (.getUserLevel 300) [0, 1, 0x2C, 8, 0] .readReturn) =
      some ⟨.levelOther, 0x08, 0, 0x00012C0800⟩ := by decide
theorem test_getUserLevel_fail :
    resultAfter (readThen (.getUserLevel 5) [0, 0, 0, 5, 0] .readReturn) =
      some ⟨.levelFail, 0x00, 0, 0x0000000500⟩ := by decide
theorem test_compareOne_reply :
    resultAfter (readThen (.compareOne 2) [0, 0, 0, 1, 0] .readReturn) =
      some ⟨.ack, 0x01, 0, 0x0000000100⟩ := by decide
theorem test_compareOne_accept :
    acceptedAs (idleThen (.present ⟨0x6, 2, 0, 0, 0, 0, 0⟩)) = some (.write, 0xF50B0002000009F5#64) := by decide
theorem test_authenticate_match :
    resultAfter (readThen .authenticate [0, 1, 0x2C, 3, 0] .readReturn) =
      some ⟨.authMatch, 0x03, 300, 0x00012C0300⟩ := by decide
theorem test_authenticate_fail :
    resultAfter (readThen .authenticate [0, 0x12, 0x34, 8, 0] .readReturn) =
      some ⟨.authFail, 0x00, 0, 0x0012340800⟩ := by decide
theorem test_setBaudRate_reply :
    resultAfter (readThen (.setBaudRate 5) [0, 0, 0, 2, 0] .readReturn) =
      some ⟨.baud, 0x02, 0, 0x0000000200⟩ := by decide
theorem test_setBaudRate_refused : resultAfter (idleThen (.present (fields 0xA 0 6))) =
    some ⟨.argRefused, 0x05, 0, 0⟩ := by decide
theorem test_setCompareLevel_accept : acceptedAs (idleThen (.present (fields 0x9 0 9))) =
    some (.write, 0xF5280009010020F5#64) := by decide
theorem test_setCompareLevel_refused :
    (after (step (idleThen (.present (fields 0x9 0 10))))).map (fun t => (t.res, t.frame, t.opQ, t.tx)) =
      some (⟨.argRefused, 0x04, 0, 0⟩, 0, 0x9, []) := by decide
theorem test_sleep_writeErr :
    (after (step (writeThen .sleep (.writeErr 3)))).map (fun t => (t.fsm, t.res, t.tx)) =
      some (.done, ⟨.sent, 0, 0, 0⟩, [0xF5, 0x2C, 0x00]) := by decide
theorem test_sleep_writeOk :
    (after (step (writeThen .sleep (.writeOk 8)))).map (fun t => (t.fsm, t.res)) =
      some (.done, ⟨.sent, 0, 0, 0⟩) := by decide
theorem test_getNextAvailableId_none :
    resultAfter (readThen (.getNextAvailableId 1 3000) [0, 0, 0, 1, 0] .readReturn) =
      some ⟨.idNone, 0x00, 0, 0x0000000100⟩ := by decide
theorem test_getNextAvailableId_timeoutAck :
    resultAfter (readThen (.getNextAvailableId 1 3000) [0, 0, 7, 8, 0] .readReturn) =
      some ⟨.id, 0x00, 7, 0x0000070800⟩ := by decide
theorem test_rawExch_reply :
    resultAfter (readThen (.rawExch 0 0) [0xF5, 0xF5, 0xF5, 0xF5, 0xF5] .readReturn) =
      some ⟨.raw, 0, 0, 0xF5F5F5F5F5⟩ := by decide
theorem test_rawExch_short :
    (after (step (readThen (.rawExch 9 0) [0, 0, 2] .readReturn))).map (fun t => (t.res, t.rx, t.rbuf)) =
      some (⟨.transportError, 0x05, 0, 0⟩, [], 0) := by decide
theorem test_rawSend_writeOk :
    (after (step (writeThen (.rawSend 0x2C 0) (.writeOk 8)))).map (fun t => (t.fsm, t.res)) =
      some (.done, ⟨.sent, 0, 0, 0⟩) := by decide
theorem test_rawSend_writeShort :
    (after (step (writeThen (.rawSend 0x2C 0) (.writeOk 3)))).map (fun t => (t.res, t.tx)) =
      some (⟨.transportError, 0x02, 0, 0⟩, [0xF5, 0x2C, 0x00]) := by decide

/-! ## The machine -/

/-- V2: a reserved tag, and a stage checked before the level. -/
theorem test_reserved_op : resultAfter (idleThen (.present (fields 0xE 1 1))) =
    some ⟨.argRefused, 0x01, 0, 0⟩ := by decide
theorem test_stage_before_level : resultAfter (idleThen (.present (fields 0x2 0 0))) =
    some ⟨.argRefused, 0x02, 0, 0⟩ := by decide

/-- V3: seven bytes there, five consumed, two left as residue. -/
theorem test_read_residue :
    (after (step (readThen .getUserCount [1, 2, 3, 4, 5, 6, 7] .readReturn))).map (fun t => (t.rx, t.rbuf)) =
      some ([6, 7], 0x0102030405) := by decide

/-- V3, timed: two bytes and the timeout: `READ_SHORT` at the deadline, the millisecond left over still to pass. -/
theorem test_read_deadline :
    (after (step (readThen .getUserCount [1, 2] (.elapse 10001)))).map (fun t => (t.res, t.now, t.script)) =
      some (⟨.transportError, 0x05, 0, 0⟩, 10000, [.elapse 1]) := by decide

/-- V3, timed: exactly at the deadline nothing is forced, and a byte may still arrive first. -/
theorem test_read_tie :
    (after (step (readThen .getUserCount [1, 2, 3, 4] (.elapse 10000)))).map (fun t => (t.fsm, t.now)) =
      some (.read, 10000) := by decide

/-- V3, timed: with five bytes there, no time passes before the read completes. -/
theorem test_read_full_at_once :
    (after (step (readThen .getUserCount [0, 0, 1, 0, 0] (.elapse 3000)))).map (fun t => (t.res, t.now)) =
      some (⟨.count, 0, 1, 0x0000010000⟩, 0) := by decide

/-- R70: a full write issues the read, its timeout running from now. -/
theorem test_read_issued :
    (after (step { writeThen .authenticate (.writeOk 8) with now := 5 })).map (fun t => (t.fsm, t.readDeadline)) =
      some (.read, 10005) := by decide

/-- P6 step 4, with draw `j = 2`: reset abandons the read. -/
theorem test_reset_in_read :
    (after (step (readThen (.compareOne 2) [0, 0] (.reset 0 2)))).map (fun t => (t.fsm, t.rx, t.opQ, t.frame)) =
      some (.idle, [], 0, 0) := by decide

/-- R77 and D24: a take keeps the registers and hands the result over. -/
theorem test_take :
    (after (step (doneThen .take))).map (fun t => (t.fsm, t.res.value, t.taken)) =
      some (.idle, 1, [⟨.count, 0, 1, 0x0000010000⟩]) := by decide

/-- R24: no result on the port, no value. -/
theorem test_sample_not_valid : step (idleThen .sample) = .fault .resultNotValid := rfl

/-- R122. -/
theorem test_foreign : step (idleThen .foreign) = .refused .foreignTransportUse := rfl

/-- The command of a table word runs as the first instruction after reset. -/
theorem test_first_instruction :
    (after (step (State.reset.withFetchWord 64 0xF50C000000000CF5))).map (fun t => (t.fsm, t.opQ, t.frame)) =
      some (.write, 0x7, 0xF50C000000000CF5) := by decide

/-- R5 and R120: the reference device rate is BaudRate code 2, and the Transport starts at it. -/
theorem test_reference_baud :
    Config.reference.initialDeviceBaud.code = 2 ∧ Safety.booted State.reset := by decide

/-- S4, S5 and S8: the source's return values. -/
theorem test_project_source :
    project .authenticate (decodeAuth 0x0012340500) = some (.auth .fail 0) ∧
    project .getNextAvailableId (decodeNextId 0x0000000500) = some (.int (-2)) ∧
    project .getNextAvailableId (resultTransportError .readTimeout) = some (.int (-1)) ∧
    project .setBaudRate (resultTransportError .readTimeout) = some (.baud .unknown) := by decide

/-! ## Every statement's hypotheses can be met -/

/-- `WRITE` for the command of `i`, its write completed so. -/
def atWrite (i : Instr) (w : WriteResult) : State := { writeThen i .take with port := .wrote w }

/-- `READ` for the command of `i`, its read completed so. -/
def atRead (i : Instr) (r : ReadResult) : State := { readThen i [] .take with port := .got r }

/-- The hypotheses of the clauses about acceptance and the write. -/
abbrev writePhases (i : Instr) : Prop :=
  State.reset.fsm = .idle ∧
  ((atWrite i (.ok 8)).fsm = .write ∧ (atWrite i (.ok 8)).port = .wrote (.ok 8)) ∧
  ((atWrite i (.ok 0)).fsm = .write ∧ (0 : Fin 9).val < 8 ∧ (atWrite i (.ok 0)).port = .wrote (.ok 0)) ∧
  ((atWrite i (.ok 7)).fsm = .write ∧ (7 : Fin 9).val < 8 ∧ (atWrite i (.ok 7)).port = .wrote (.ok 7)) ∧
  ((atWrite i .err).fsm = .write ∧ (atWrite i .err).port = .wrote .err)

/-- The hypotheses of the clauses about the read. -/
abbrev readPhases (i : Instr) : Prop :=
  ((atRead i (.ok [1, 2, 3, 4, 5])).fsm = .read ∧
    (atRead i (.ok [1, 2, 3, 4, 5])).port = .got (.ok [1, 2, 3, 4, 5])) ∧
  ((atRead i (.ok [])).fsm = .read ∧ (atRead i (.ok [])).port = .got (.ok [])) ∧
  ((atRead i (.ok [1])).fsm = .read ∧ 1 ≤ [1#8].length ∧ [1#8].length ≤ 4 ∧
    (atRead i (.ok [1])).port = .got (.ok [1])) ∧
  ((atRead i (.ok [1, 2, 3, 4])).fsm = .read ∧ [1#8, 2, 3, 4].length ≤ 4 ∧
    (atRead i (.ok [1, 2, 3, 4])).port = .got (.ok [1, 2, 3, 4])) ∧
  ((atRead i .err).fsm = .read ∧ (atRead i .err).port = .got .err)

theorem test_witness_ChecksumLaws :
    0 < 8 ∧ 7 < 8 ∧ [true, false, true, true, true].length = 5 ∧ [true, false, true, true, true].count true % 2 = 0 ∧
    (Payload.bytes ⟨0x0B, 0, 1, 0, 0⟩).Perm (Payload.bytes ⟨0x0B, 1, 0, 0, 0⟩) := by decide

theorem test_witness_WellFormedFramesAreTheEncoded :
    frameOk 0xF54700010BB8F5F5#64 = true ∧ frameEncode ⟨1, 0, 1, 1, 0⟩ = frameEncode ⟨1, 0, 1, 1, 0⟩ := by decide

theorem test_witness_DecodeOfEncode :
    namedRow 0x00 0 = none ∧ namedRow 0x28 0x00050000 = none ∧ namedRow 0x05 0 = some .removeAll := by decide

theorem test_witness_EncodeOfDecode : frameOk 0xF58040201008F8F5#64 = true ∧ frameOk 0xF5000000000000F5#64 = true := by
  decide

theorem test_witness_DecoderRejectsByName :
    ([] : List Byte).length ≠ 8 ∧ [0xF5#8, 0, 0, 0, 0, 0, 0].length ≠ 8 ∧ [0xF5#8, 0, 0, 0, 0, 0, 0, 0xF5, 0].length ≠ 8 ∧
    frameByte 0xF4000000000000F5#64 0 ≠ 0xF5 ∧
    (frameByte 0xF5000000000000F4#64 0 = 0xF5 ∧ frameByte 0xF5000000000000F4#64 7 ≠ 0xF5) ∧
    (frameByte 0xF5000000000000F5#64 0 = 0xF5 ∧ frameByte 0xF5000000000000F5#64 7 = 0xF5) := by decide

/-- Every op tag is some command's, and each stage. -/
theorem test_witness_OpTagsNameTheOperations :
    (∀ op : BitVec 4, (fields op 1 1).op = op) ∧ (fields 0x2 1 1).s8 = 1 ∧ (fields 0x2 2 1).s8 = 2 ∧
      (fields 0x2 3 1).s8 = 3 := by decide

theorem test_witness_EnrollOperation_level :
    ((1 : Byte) = 1 ∨ (1 : Byte) = 2 ∨ (1 : Byte) = 3) ∧ ((3 : Byte) = 1 ∨ (3 : Byte) = 2 ∨ (3 : Byte) = 3) ∧
      ¬((0 : Byte) = 1 ∨ (0 : Byte) = 2 ∨ (0 : Byte) = 3) ∧ ¬((4 : Byte) = 1 ∨ (4 : Byte) = 2 ∨ (4 : Byte) = 3) := by
  decide

theorem test_witness_EnrollOperation :
    writePhases (.enrollStart 0 1) ∧ readPhases (.enrollIntermediate 1 2) ∧ readPhases (.enrollEnd 0xFFFF 3) := by
  decide

theorem test_witness_EnrollOperation_badStage :
    (idleThen (.present (fields 0x2 4 1))).fsm = .idle ∧
      comesNext (idleThen (.present (fields 0x2 4 1))) (.present (fields 0x2 4 1)) [] ∧
      (fields 0x2 4 1).op = 0x2 ∧ (fields 0x2 4 1).s8 ≠ 1 ∧ (fields 0x2 4 1).s8 ≠ 2 ∧ (fields 0x2 4 1).s8 ≠ 3 ∧
      (fields 0x2 0 1).s8 ≠ 1 ∧ (fields 0x2 0 1).s8 ≠ 2 ∧ (fields 0x2 0 1).s8 ≠ 3 := by decide

theorem test_witness_RemoveOneOperation : writePhases (.removeOne 0) ∧ readPhases (.removeOne 0xFFFF) := by decide
theorem test_witness_RemoveAllOperation : writePhases .removeAll ∧ readPhases .removeAll := by decide
theorem test_witness_GetUserCountOperation : writePhases .getUserCount ∧ readPhases .getUserCount := by decide
theorem test_witness_CompareOneOperation : writePhases (.compareOne 0) ∧ readPhases (.compareOne 0xFFFF) := by decide
theorem test_witness_AuthenticateOperation : writePhases .authenticate ∧ readPhases .authenticate := by decide
theorem test_witness_GetUserLevelOperation : writePhases (.getUserLevel 0) ∧ readPhases (.getUserLevel 0xFFFF) := by
  decide

theorem test_witness_SetCompareLevelOperation :
    writePhases (.setCompareLevel 9) ∧ readPhases (.setCompareLevel 9) ∧ (0 : Byte).toNat ≤ 9 ∧
      (9 : Byte).toNat ≤ 9 ∧ 9 < (10 : Byte).toNat ∧ 9 < (255 : Byte).toNat := by decide

theorem test_witness_SetBaudRateOperation :
    writePhases (.setBaudRate 5) ∧ readPhases (.setBaudRate 5) ∧
      ((1 : Byte) = 1 ∨ (1 : Byte) = 2 ∨ (1 : Byte) = 3 ∨ (1 : Byte) = 4 ∨ (1 : Byte) = 5) ∧
      ((5 : Byte) = 1 ∨ (5 : Byte) = 2 ∨ (5 : Byte) = 3 ∨ (5 : Byte) = 4 ∨ (5 : Byte) = 5) ∧
      ¬((0 : Byte) = 1 ∨ (0 : Byte) = 2 ∨ (0 : Byte) = 3 ∨ (0 : Byte) = 4 ∨ (0 : Byte) = 5) ∧
      ¬((6 : Byte) = 1 ∨ (6 : Byte) = 2 ∨ (6 : Byte) = 3 ∨ (6 : Byte) = 4 ∨ (6 : Byte) = 5) := by decide

theorem test_witness_GetNextAvailableIdOperation :
    writePhases (.getNextAvailableId 3000 1) ∧ readPhases (.getNextAvailableId 0 0xFFFF) := by decide
theorem test_witness_RawExchangeOperation : writePhases (.rawExch 0xF5 0) ∧ readPhases (.rawExch 0 0xFFFFFFFF) := by
  decide
theorem test_witness_RawSendOperation : writePhases (.rawSend 0x2C 0) := by decide
theorem test_witness_SleepOperation : writePhases .sleep := by decide

theorem test_witness_AckClasses :
    ((0x02 : Byte) = 0x02 ∨ (0x02 : Byte) = 0x03 ∨ 0x0A ≤ (0x02 : Byte).toNat) ∧ 0x0A ≤ (0x0A : Byte).toNat ∧
      0x0A ≤ (0xFF : Byte).toNat ∧ OpTag.setCompareLevel ∈ [.enroll, .removeOne, .removeAll, .compareOne, .setCompareLevel] := by
  decide

theorem test_witness_ReservedReplyBytesUnread :
    decodeReply .getUserCount (packReply 1 0 2 5 9) = some ⟨.count, 0, 2, 0x0100020509⟩ := by decide

theorem test_witness_StepRunsThePresentedInstruction :
    (idleThen (.present (fields 0x9 0 10))).fsm = .idle ∧
      comesNext (idleThen (.present (fields 0x9 0 10))) (.present (fields 0x9 0 10)) [] ∧
      decodeCommand (fields 0x9 0 10) = .ok (.setCompareLevel 10) ∧
      decodeTableWord 64 0xF52C000000002CF5 = some .sleep := ⟨rfl, rfl, rfl, by decide⟩

theorem test_witness_StepDeliversTheCompletion :
    (inFlight (writeThen .sleep (.writeOk 0)) = some .sleep ∧ (writeThen .sleep (.writeOk 0)).fsm = .write ∧
      comesNext (writeThen .sleep (.writeOk 0)) (.writeOk 0) []) ∧
    (inFlight (writeThen (.removeOne 7) (.writeErr 8)) = some (.removeOne 7) ∧
      (writeThen (.removeOne 7) (.writeErr 8)).fsm = .write ∧
      comesNext (writeThen (.removeOne 7) (.writeErr 8)) (.writeErr 8) []) ∧
    (inFlight (readThen .authenticate [1, 2, 3, 4, 5] .readReturn) = some .authenticate ∧
      (readThen .authenticate [1, 2, 3, 4, 5] .readReturn).fsm = .read ∧
      comesNext (readThen .authenticate [1, 2, 3, 4, 5] .readReturn) .readReturn [] ∧
      5 ≤ (readThen .authenticate [1, 2, 3, 4, 5] .readReturn).rx.length) ∧
    (inFlight (readThen .authenticate [1, 2, 3, 4] .readReturn) = some .authenticate ∧
      comesNext (readThen .authenticate [1, 2, 3, 4] .readReturn) .readReturn [] ∧
      (readThen .authenticate [1, 2, 3, 4] .readReturn).rx.length < 5) ∧
    (inFlight (readThen .authenticate [] (.readErr 5)) = some .authenticate ∧
      (readThen .authenticate [] (.readErr 5)).fsm = .read ∧
      comesNext (readThen .authenticate [] (.readErr 5)) (.readErr 5) []) := by decide

/-- One command for each line of the check. -/
theorem test_witness_ArgumentCheck :
    (idleThen (.present (fields 0xF 1 1))).fsm = .idle ∧
    (fields 0xD 1 1).op = 0xD ∧
    ((fields 0x2 0 0).op = 0x2 ∧ (fields 0x2 0 0).s8 ∉ [1#8, 2#8, 3#8]) ∧
    ((fields 0x2 3 4).s8 ∈ [1#8, 2#8, 3#8] ∧ (fields 0x2 3 4).v8 ∉ [1#8, 2#8, 3#8]) ∧
    ((fields 0x9 0 10).op = 0x9 ∧ 9 < (fields 0x9 0 10).v8.toNat) ∧ ¬ 9 < (fields 0x9 0 9).v8.toNat ∧
    ((fields 0xA 0 6).op = 0xA ∧ (fields 0xA 0 6).v8 ∉ [1#8, 2#8, 3#8, 4#8, 5#8]) ∧
    (fields 0xA 0 5).v8 ∈ [1#8, 2#8, 3#8, 4#8, 5#8] ∧
    comesNext (idleThen (.present (fields 0xC 0 0))) (.present (fields 0xC 0 0)) [] := by decide

theorem test_witness_ArgCheckIsWellFormedness :
    argCheck (fields 0x9 0 9) = none ∧ argCheck (fields 0x9 0 10) = some .badCompareLevel := by decide

theorem test_witness_RegistersHoldTheCommand :
    (Instr.enrollEnd 0xFFFF 3).wellFormed = true ∧ State.reset.fsm = .idle := by decide

theorem test_witness_BusyPortIgnoresCommands :
    (doneThen (.present (fields 0xC 0 0))).cmdReady = false ∧
      comesNext (doneThen (.present (fields 0xC 0 0))) (.present (fields 0xC 0 0)) [] ∧
      (writeThen .sleep (.present (fields 0xC 0 0))).cmdReady = false ∧
      (readThen .removeAll [] (.present (fields 0xC 0 0))).cmdReady = false := by decide

/-- A transition of each kind: accepted, the read issued, a reply decoded. -/
theorem test_witness_InstructionFrame :
    exec .removeAll State.reset = .next { State.reset with
      opQ := 0x4#4, frame := 0xF5050000000005F5#64, fsm := .write } ∧
    (∃ t, exec .removeAll (atWrite .removeAll (.ok 8)) = .next t ∧
      t.readDeadline ≠ (atWrite .removeAll (.ok 8)).readDeadline) ∧
    ∃ t, exec .removeAll (atRead .removeAll (.ok [1, 2, 3, 4, 5])) = .next t ∧ t.fsm ≠ .write ∧
      t.rbuf ≠ (atRead .removeAll (.ok [1, 2, 3, 4, 5])).rbuf ∧
      t.res ≠ (atRead .removeAll (.ok [1, 2, 3, 4, 5])).res :=
  ⟨rfl, ⟨_, rfl, by decide⟩, ⟨_, rfl, by decide, by decide, by decide⟩⟩

theorem test_witness_InstructionWaits :
    (doneThen .take).fsm = .done ∧
    ((writeThen .sleep .take).fsm = .write ∧ ∀ w, (writeThen .sleep .take).port ≠ .wrote w) ∧
    ((readThen .removeAll [] .take).fsm = .read ∧ ∀ r, (readThen .removeAll [] .take).port ≠ .got r) ∧
    ((atRead .removeAll .err).fsm = .read ∧ Instr.sleep.tag.expectsReply = false) :=
  ⟨rfl, ⟨rfl, fun _ h => nomatch h⟩, ⟨rfl, fun _ h => nomatch h⟩, rfl, rfl⟩

/-- A refusal at acceptance, and a read error. -/
theorem test_witness_ErrorEntryIsPrecise :
    (∃ t, exec (.setBaudRate 6) State.reset = .next t ∧ State.reset.fsm ≠ .done ∧ t.fsm = .done ∧
      t.res.kind = .argRefused) ∧
    ∃ t, exec .removeAll (atRead .removeAll .err) = .next t ∧ (atRead .removeAll .err).fsm ≠ .done ∧
      t.fsm = .done ∧ t.res.kind = .transportError ∧ (atRead .removeAll .err).fsm ≠ .idle :=
  ⟨⟨_, rfl, by decide, rfl, rfl⟩, ⟨_, rfl, by decide, rfl, rfl, by decide⟩⟩

theorem test_witness_WriteAppendsAPrefixOfTheFrame :
    (writeThen .sleep (.writeOk 8)).fsm = .write ∧ comesNext (writeThen .sleep (.writeOk 8)) (.writeOk 8) [] ∧
      comesNext (writeThen .sleep (.writeOk 0)) (.writeOk 0) [] ∧
      comesNext (writeThen .sleep (.writeErr 8)) (.writeErr 8) [] ∧
      comesNext (writeThen .sleep (.writeErr 0)) (.writeErr 0) [] := by decide

theorem test_witness_ReadConsumesFromTheFront :
    (readThen .removeAll [1, 2, 3, 4, 5] .readReturn).fsm = .read ∧
    expectsReply (readThen .removeAll [1, 2, 3, 4, 5] .readReturn).opQ = true ∧
    (readThen .removeAll [1, 2, 3, 4, 5] .readReturn).rx = 1 :: 2 :: 3 :: 4 :: 5 :: [] ∧
    comesNext (readThen .removeAll [1, 2, 3, 4, 5] .readReturn) .readReturn [] ∧
    (readThen .removeAll [] .readReturn).rx.length ≤ 4 ∧
    (readThen .removeAll [1, 2, 3, 4] .readReturn).rx.length ≤ 4 ∧
    comesNext (readThen .removeAll [1, 2, 3, 4] .readReturn) .readReturn [] ∧
    comesNext (readThen .removeAll [1] (.readErr 5)) (.readErr 5) [] := by decide

/-- A write that sends, a read that removes, and a device that appends. -/
theorem test_witness_StreamsChangeOnlyAtTheirEnds :
    (∃ t, step (writeThen .sleep (.writeOk 3)) = .next t ∧ t.tx ≠ (writeThen .sleep (.writeOk 3)).tx) ∧
    (∃ t, step (readThen .removeAll [1, 2] (.readErr 1)) = .next t ∧ t.rx = [2]) ∧
    ∃ t, step (idleThen (.deviceSends [1, 2])) = .next t ∧ t.rx = [1, 2] ∧ (idleThen (.deviceSends [1, 2])).fsm ≠ .write :=
  ⟨⟨_, rfl, by decide⟩, ⟨_, rfl, by decide⟩, ⟨_, rfl, by decide, by decide⟩⟩

theorem test_witness_TransitionTable :
    comesNext (readThen .removeAll [] (.elapse 10001)) (.elapse 10001) [] ∧
    opTagOfCode (readThen .removeAll [] (.elapse 10001)).opQ ≠ none ∧
    expectsReply (readThen .removeAll [] (.elapse 10001)).opQ = true ∧
    (∃ t, step (readThen .removeAll [] (.elapse 10001)) = .next t ∧ t.fsm = .done) ∧
    opTagOfCode (writeThen .sleep (.writeOk 8)).opQ ≠ none ∧
    (∃ t, step (writeThen .sleep (.writeOk 8)) = .next t ∧ t.fsm = .done) ∧
    ∃ t, step (idleThen (.present (fields 0xC 0 0))) = .next t ∧ t.fsm = .write :=
  ⟨rfl, by decide, rfl, ⟨_, rfl, by decide⟩, by decide, ⟨_, rfl, by decide⟩, ⟨_, rfl, by decide⟩⟩

/-- A write that completes so, and the two ways in which passing time completes a read. -/
theorem test_witness_NothingCancelsARequest :
    (∃ t, step (writeThen .removeAll (.writeOk 8)) = .next t ∧
      (writeThen .removeAll (.writeOk 8)).fsm = .write ∧ t.fsm ≠ .write) ∧
    (∃ t, step (writeThen .sleep (.reset 8 4)) = .next t ∧ (writeThen .sleep (.reset 8 4)).fsm = .write ∧
      t.fsm ≠ .write) ∧
    (∃ t, step (readThen .removeAll [] (.elapse 10001)) = .next t ∧
      (readThen .removeAll [] (.elapse 10001)).fsm = .read ∧ t.fsm ≠ .read) ∧
    ∃ t, step (readThen .removeAll [1, 2, 3, 4, 5] (.elapse 1)) = .next t ∧
      (readThen .removeAll [1, 2, 3, 4, 5] (.elapse 1)).fsm = .read ∧ t.fsm ≠ .read :=
  ⟨⟨_, rfl, by decide, by decide⟩, ⟨_, rfl, by decide, by decide⟩, ⟨_, rfl, by decide, by decide⟩,
    ⟨_, rfl, by decide, by decide⟩⟩

theorem test_witness_TakeReturnsToIdle : (doneThen .take).fsm = .done ∧ comesNext (doneThen .take) .take [] := by decide

theorem test_witness_ResultHeldUntilTaken :
    (doneThen (.deviceSends [7])).fsm = .done ∧ comesNext (doneThen (.deviceSends [7])) (.deviceSends [7]) [] ∧
    Event.deviceSends [7] ≠ .take ∧ (∀ k j, Event.deviceSends [7] ≠ .reset k j) ∧
    ∃ t, step (doneThen (.deviceSends [7])) = .next t :=
  ⟨rfl, rfl, by decide, fun _ _ h => (nomatch h), _, rfl⟩

theorem test_witness_ResultsTakenInOrder : ∃ t, step (doneThen .take) = .next t ∧ t.taken ≠ [] := ⟨_, rfl, by decide⟩

theorem test_witness_StrayEventsIgnored :
    ((idleThen (.writeOk 8)).fsm ≠ .write ∧ comesNext (idleThen (.writeOk 8)) (.writeOk 8) []) ∧
    ((readThen .removeAll [] (.writeErr 0)).fsm ≠ .write ∧
      comesNext (readThen .removeAll [] (.writeErr 0)) (.writeErr 0) []) ∧
    ((writeThen .sleep .readReturn).fsm ≠ .read ∧ comesNext (writeThen .sleep .readReturn) .readReturn []) ∧
    ((doneThen (.readErr 5)).fsm ≠ .read ∧ comesNext (doneThen (.readErr 5)) (.readErr 5) []) ∧
    ((idleThen .take).resValid = false ∧ comesNext (idleThen .take) .take []) := by decide

theorem test_witness_WhereAStepStops :
    (idleThen .sample).resValid = false ∧ comesNext (idleThen .sample) .sample [] ∧
      comesNext (idleThen .foreign) .foreign [] := by decide

theorem test_witness_ResultReadWithoutTaking :
    (doneThen .sample).fsm = .done ∧ comesNext (doneThen .sample) .sample [] := by decide

/-- Each clause, and the last millisecond before the deadline and the first after. -/
theorem test_witness_ReadTimeout :
    (readThen .removeAll [1, 2, 3, 4] (.elapse 10000)).fsm = .read ∧
    opTagOfCode (readThen .removeAll [1, 2, 3, 4] (.elapse 10000)).opQ = some .removeAll ∧
    OpTag.removeAll.expectsReply = true ∧
    (readThen .removeAll [1, 2, 3, 4] (.elapse 10000)).now ≤
      (readThen .removeAll [1, 2, 3, 4] (.elapse 10000)).readDeadline ∧
    comesNext (readThen .removeAll [1, 2, 3, 4] (.elapse 10000)) (.elapse 10000) [] ∧
    (readThen .removeAll [1, 2, 3, 4] (.elapse 10000)).rx.length < 5 ∧
    (readThen .removeAll [1, 2, 3, 4] (.elapse 10000)).now + 10000 ≤
      (readThen .removeAll [1, 2, 3, 4] (.elapse 10000)).readDeadline ∧
    (readThen .removeAll [1, 2, 3, 4] (.elapse 10001)).readDeadline <
      (readThen .removeAll [1, 2, 3, 4] (.elapse 10001)).now + 10001 ∧
    (readThen .removeAll [1, 2, 3, 4, 5] (.elapse 1)).rx = 1 :: 2 :: 3 :: 4 :: 5 :: [] ∧ 0 < 1 ∧
    comesNext (readThen .removeAll [1, 2, 3, 4, 5] (.elapse 0)) (.elapse 0) [] := by decide

theorem test_witness_ParametersAndRateStay :
    ∃ t, step (idleThen (.configure (some .b115200))) = .next t ∧ t.transportBaud = some .b115200 := ⟨_, rfl, by decide⟩

theorem test_witness_ResetFromAnyState :
    comesNext (writeThen .sleep (.reset 8 4)) (.reset 8 4) [] ∧
      comesNext (readThen .removeAll [1] (.reset 0 4)) (.reset 0 4) [] ∧
      comesNext (doneThen (.reset 0 0)) (.reset 0 0) [] := by decide

/-- Another event, another reset, and an append, each named first and second. -/
theorem test_witness_ResetTakesPrecedence :
    (∀ bytes, Event.take ≠ .deviceSends bytes) ∧
    [Event.reset 8 4] ∈ Safety.coincident (.reset 8 4) .take ∧
    [Event.reset 8 4] ∈ Safety.coincident .take (.reset 8 4) ∧
    [Event.reset 0 0] ∈ Safety.coincident (.reset 0 0) (.reset 8 4) ∧
    [Event.reset 8 4, .deviceSends [1]] ∈ Safety.coincident (.reset 8 4) (.deviceSends [1]) ∧
    [Event.deviceSends [1], .reset 8 4] ∈ Safety.coincident (.deviceSends [1]) (.reset 8 4) ∧
    [Event.deviceSends [1], .reset 0 0] ∈
      [[Event.reset 0 0, .deviceSends [1]], [Event.deviceSends [1], .reset 0 0]] :=
  ⟨fun _ h => (nomatch h), by decide, by decide, by decide, by decide, by decide, by decide⟩

theorem test_witness_DeviceAppendsAtTheEnd :
    comesNext (readThen .removeAll [1] (.deviceSends [2, 3])) (.deviceSends [2, 3]) [] ∧
      comesNext (writeThen .sleep (.deviceSends [])) (.deviceSends []) [] := by decide

theorem test_witness_WholeExchange :
    let s : State := { State.reset with
      rx := [0, 1, 0x2C, 3, 0, 9],
      script := [.present (encodeCommand .authenticate), .writeOk 8, .readReturn, .take] }
    Instr.authenticate.wellFormed = true ∧ Instr.authenticate.tag.expectsReply = true ∧ s.fsm = .idle ∧
      s.rx = 0 :: 1 :: 0x2C :: 3 :: 0 :: [9] ∧
      s.script = .present (encodeCommand .authenticate) :: .writeOk 8 :: .readReturn :: [.take] := by decide

theorem test_witness_WholeSend :
    let s : State := { State.reset with script := [.present (encodeCommand (.rawSend 0x2C 0)), .writeOk 8] }
    (Instr.rawSend 0x2C 0).tag.expectsReply = false ∧ s.fsm = .idle ∧
      s.script = .present (encodeCommand (.rawSend 0x2C 0)) :: .writeOk 8 :: [] := by decide

/-- The invariant in each phase, with a step from it. -/
theorem test_witness_InvariantKept :
    Safety.Inv (writeThen (.compareOne 2) (.writeOk 8)) ∧ Safety.Inv (readThen (.compareOne 2) [1] (.elapse 10001)) ∧
    Safety.Inv (doneThen .take) ∧ (∃ t, step (writeThen (.compareOne 2) (.writeOk 8)) = .next t) ∧
    (∃ t, step (readThen (.compareOne 2) [1] (.elapse 10001)) = .next t) ∧ ∃ t, step (doneThen .take) = .next t :=
  ⟨by decide, by decide, by decide, ⟨_, rfl⟩, ⟨_, rfl⟩, ⟨_, rfl⟩⟩

end Sys2Proof.Tests
end

section
/-! PROOFS. The Transport's rate and the parameters along a step: every event but the setup collaborator's keeps both.
The inversions of a delivery, of the passing of time and of a step stand here too. -/

namespace Sys2Proof.Proofs

open Machine Claims Laws

/-! ## What reset abandons, and a delivery, the passing of time and a step by cases -/

@[simp] theorem abandonRequest_params (k : Fin 9) (j : Fin 5) (s : State) :
    (abandonRequest k j s).params = s.params := by
  unfold abandonRequest
  cases s.fsm <;> rfl

@[simp] theorem abandonRequest_transportBaud (k : Fin 9) (j : Fin 5) (s : State) :
    (abandonRequest k j s).transportBaud = s.transportBaud := by
  unfold abandonRequest
  cases s.fsm <;> rfl

/-- A delivery is one transition of the instruction in flight; with none in flight it only clears the port. -/
theorem deliver_cases {s t : State} (h : deliver s = .next t) :
    (∃ i, inFlight s = some i ∧ exec i s = .next t) ∨ (inFlight s = none ∧ t = clearPort s) := by
  unfold deliver at h
  split at h
  · exact .inl ⟨_, ‹_›, h⟩
  · exact .inr ⟨‹_›, by simpa using h.symm⟩

/-- A step changes nothing, with an empty schedule, or handles the event that comes next. -/
theorem step_cases {s t : State} (h : step s = .next t) :
    (s.script = [] ∧ t = s) ∨
      ∃ e rest, comesNext s e rest ∧ handle e { s with script := rest } = .next t := by
  cases hs : s.script with
  | nil => exact .inl ⟨rfl, by simpa [step_nil hs] using h.symm⟩
  | cons e rest => exact .inr ⟨e, rest, hs, step_cons hs ▸ h⟩

/-- How `handle` treats the four completions: delivered in the phase that awaits them, else without effect (R78). -/
theorem deliver_or_eq_of_ite {p : Prop} [Decidable p] {s u t : State}
    (h : (if p then deliver u else .next s) = .next t) : (p ∧ deliver u = .next t) ∨ (¬ p ∧ t = s) := by
  split at h
  · exact .inl ⟨‹_›, h⟩
  · exact .inr ⟨‹_›, by simpa using h.symm⟩

/-- Time passes by completing an outstanding read at once, all of `dt` left over; by completing it at its deadline,
the rest of `dt` left over; or, with no read that completes within `dt`, by moving the clock (R35). -/
theorem passTime_cases {dt : Nat} {s t : State} (h : passTime dt s = .next t) :
    ((s.fsm = .read ∧ 5 ≤ s.rx.length ∧ 0 < dt) ∧
      deliver (finishRead { s with script := .elapse dt :: s.script }) = .next t) ∨
    ((s.fsm = .read ∧ s.rx.length < 5 ∧ s.readDeadline < s.now + dt) ∧
      deliver (finishRead { s with script := .elapse (s.now + dt - max s.now s.readDeadline) :: s.script }) =
        .next t) ∨
    (¬ (s.fsm = .read ∧ 5 ≤ s.rx.length ∧ 0 < dt) ∧
      ¬ (s.fsm = .read ∧ s.rx.length < 5 ∧ s.readDeadline < s.now + dt) ∧ t = { s with now := s.now + dt }) := by
  unfold passTime at h
  split at h
  case isTrue hfull => exact .inl ⟨hfull, h⟩
  case isFalse hfull =>
    split at h
    case isTrue hlate => exact .inr (.inl ⟨hlate, h⟩)
    case isFalse hlate => exact .inr (.inr ⟨hfull, hlate, by simpa using h.symm⟩)

/-! ## Keeping the parameters and the rate -/

/-- `t` has the parameters and the Transport's rate of `s`. -/
structure SameConfig (s t : State) : Prop where
  params : t.params = s.params
  transportBaud : t.transportBaud = s.transportBaud

theorem SameConfig.trans {s u t : State} (hsu : SameConfig s u) (hut : SameConfig u t) : SameConfig s t :=
  ⟨hut.params.trans hsu.params, hut.transportBaud.trans hsu.transportBaud⟩

/-- No transition of an instruction touches either, whatever the phase. -/
theorem exec_sameConfig {i : Instr} {s t : State} (h : exec i s = .next t) : SameConfig s t := by
  rcases exec_cases h with ⟨_, rfl⟩ | ⟨_, _, _, rfl⟩ | ⟨_, _, _, rfl⟩ | ⟨_, _, _, _, rfl⟩ |
    ⟨_, _, _, _, rfl⟩ | ⟨_, _, _, _, _, _, _, _, _, rfl⟩ | ⟨_, _, _, _, rfl⟩ | ⟨_, rfl⟩
  all_goals constructor <;> simp

theorem deliver_sameConfig {s t : State} (h : deliver s = .next t) : SameConfig s t := by
  rcases deliver_cases h with ⟨_, _, hexec⟩ | ⟨_, rfl⟩
  · exact exec_sameConfig hexec
  · exact ⟨clearPort_params s, clearPort_transportBaud s⟩

theorem presentCommand_sameConfig {c : Command} {s t : State} (h : presentCommand c s = .next t) :
    SameConfig s t := by
  rcases presentCommand_cases h with ⟨_, rfl⟩ | ⟨_, _, _, hexec⟩ | ⟨_, r, _, rfl⟩
  · exact ⟨rfl, rfl⟩
  · exact exec_sameConfig hexec
  · exact ⟨refuse_params c.op r s, refuse_transportBaud c.op r s⟩

/-- A completion handled: the state `u` it is delivered from has the configuration of `s`, so the outcome has too. -/
theorem completion_sameConfig {p : Prop} [Decidable p] {s u t : State} (hu : SameConfig s u)
    (h : (if p then deliver u else .next s) = .next t) : SameConfig s t := by
  rcases deliver_or_eq_of_ite h with ⟨_, hdel⟩ | ⟨_, rfl⟩
  · exact hu.trans (deliver_sameConfig hdel)
  · exact ⟨rfl, rfl⟩

theorem passTime_sameConfig {dt : Nat} {s t : State} (h : passTime dt s = .next t) : SameConfig s t := by
  rcases passTime_cases h with ⟨_, hdel⟩ | ⟨_, hdel⟩ | ⟨_, _, rfl⟩
  · exact ⟨(deliver_sameConfig hdel).params, (deliver_sameConfig hdel).transportBaud⟩
  · exact ⟨(deliver_sameConfig hdel).params, (deliver_sameConfig hdel).transportBaud⟩
  · exact ⟨rfl, rfl⟩

theorem resetMachine_sameConfig (k : Fin 9) (j : Fin 5) (s : State) : SameConfig s (resetMachine k j s) := by
  constructor <;> simp [resetMachine]

/-- Every event keeps the configuration, or is the setup collaborator's, which sets the rate and nothing else
(R125). -/
theorem handle_sameConfig_or_configure {e : Event} {s t : State} (h : handle e s = .next t) :
    SameConfig s t ∨ ∃ rate, e = .configure rate ∧ t = { s with transportBaud := rate } := by
  cases e with
  | configure rate => exact .inr ⟨rate, rfl, by simpa [handle] using h.symm⟩
  | present c => exact .inl (presentCommand_sameConfig h)
  | elapse dt => exact .inl (passTime_sameConfig h)
  | writeOk n => exact .inl (completion_sameConfig (u := finishWriteOk n s) ⟨rfl, rfl⟩ h)
  | writeErr k => exact .inl (completion_sameConfig (u := finishWriteErr k s) ⟨rfl, rfl⟩ h)
  | readReturn => exact .inl (completion_sameConfig (u := finishRead s) ⟨rfl, rfl⟩ h)
  | readErr j => exact .inl (completion_sameConfig (u := finishReadErr j s) ⟨rfl, rfl⟩ h)
  | reset k j =>
    obtain rfl : resetMachine k j s = t := by simpa [handle] using h
    exact .inl (resetMachine_sameConfig k j s)
  | deviceSends bytes =>
    obtain rfl : deviceAppend bytes s = t := by simpa [handle] using h
    exact .inl ⟨deviceAppend_params bytes s, deviceAppend_transportBaud bytes s⟩
  | take =>
    left
    simp only [handle] at h
    split at h <;> cases h <;> exact ⟨rfl, rfl⟩
  | sample =>
    left
    simp only [handle] at h
    split at h <;> cases h
    exact ⟨rfl, rfl⟩
  | foreign => cases h

/-- Settles O46, by the event the step handles. -/
theorem parametersAndRateStay : Obligations.ParametersAndRateStay := by
  intro s t h
  rcases step_cases h with ⟨_, rfl⟩ | ⟨e, rest, hnext, hhandle⟩
  · exact ⟨rfl, .inl rfl⟩
  · rcases handle_sameConfig_or_configure hhandle with ⟨hparams, hbaud⟩ | ⟨rate, rfl, rfl⟩
    · exact ⟨hparams, .inl hbaud⟩
    · exact ⟨rfl, .inr ⟨rate, rest, hnext, rfl⟩⟩

end Sys2Proof.Proofs
end

section
/-! PROOFS. What a command leaves in the registers: the frame of an instruction in its two renderings, the instruction
that `op_q` and `frame` give back, acceptance as an equation, and what one transition leaves alone. -/

namespace Sys2Proof.Proofs

open Machine Claims Laws

/-! ## The frame, and the instruction read back from it -/

/-- The table row of an instruction is the FrameCodec's frame of its payload (R53, R62). -/
theorem encode_eq_frameEncode (i : Instr) : encode i = frameEncode (payloadOf i) := by
  cases i with
  | enrollStart uid level | enrollIntermediate uid level | enrollEnd uid level =>
    obtain ⟨h0, h1, h2, h3⟩ := paramByte_half_bytes uid level 0x00#8
    simp only [encode, rowWord_eq_frameEncode, payloadRaw, h0, h1, h2, h3, payloadOf, payloadEnroll, EnrollStage.code]
  | removeOne uid | getUserLevel uid | compareOne uid =>
    obtain ⟨h0, h1, h2, h3⟩ := paramByte_halves uid 0x0000#16
    simp only [encode, rowWord_eq_frameEncode, payloadRaw, h0, h1, h2, h3, payloadOf]
    rfl
  | removeAll | getUserCount | authenticate | sleep => exact rowWord_eq_frameEncode _ _
  | setBaudRate new =>
    obtain ⟨h0, h1, h2, h3⟩ := paramByte_half_bytes 0x0000#16 new 0x00#8
    simp only [encode, rowWord_eq_frameEncode, payloadRaw, h0, h1, h2, h3, payloadOf]
    rfl
  | setCompareLevel lvl =>
    obtain ⟨h0, h1, h2, h3⟩ := paramByte_append 0x00#8 lvl 0x01#8 0x00#8
    simp only [encode, rowWord_eq_frameEncode, payloadRaw, h0, h1, h2, h3, payloadOf, payloadCompareLevel]
  | getNextAvailableId lo hi =>
    obtain ⟨h0, h1, h2, h3⟩ := paramByte_halves lo hi
    simp only [encode, rowWord_eq_frameEncode, payloadRaw, h0, h1, h2, h3, payloadOf, payloadRange]
  | rawExch cmd params | rawSend cmd params => exact rowWord_eq_frameEncode cmd params

/-- The first half of a parameter word made of a 16-bit field and two bytes. -/
@[simp] theorem extract_hi_append_bytes (a : Word16) (b c : Byte) :
    (a ++ b ++ c : ParamWord).extractLsb' 16 16 = a := by
  apply BitVec.eq_of_getLsbD_eq
  intro i hi
  simp only [BitVec.getLsbD_append, BitVec.getLsbD_extractLsb']
  grind

/-- The op tag and the frame of an instruction give the instruction back, the stage of an ENROLL and RAW_SEND
included (R13, R14). -/
theorem inFlight_of_registers {i : Instr} {s : State} (hop : s.opQ = i.tag.code) (hframe : s.frame = encode i) :
    inFlight s = some i := by
  unfold inFlight
  rw [hop, hframe, opTagOfCode_code]
  cases i with
  | enrollStart uid level | enrollIntermediate uid level | enrollEnd uid level =>
    obtain ⟨-, -, hlevel, -⟩ := paramByte_half_bytes uid level 0x00#8
    simp [Instr.tag, encode, hlevel, stageOfByte, enrollInstr]
  | setBaudRate new =>
    obtain ⟨-, -, hnew, -⟩ := paramByte_half_bytes 0x0000#16 new 0x00#8
    simp only [Instr.tag, encode, rowWord_params, hnew]
  | setCompareLevel lvl =>
    obtain ⟨-, hlvl, -, -⟩ := paramByte_append 0x00#8 lvl 0x01#8 0x00#8
    simp only [Instr.tag, encode, rowWord_params, hlvl]
  | removeOne uid | getUserLevel uid | compareOne uid | getNextAvailableId lo hi | rawExch cmd params
  | rawSend cmd params => simp [Instr.tag, encode]
  | removeAll | getUserCount | authenticate | sleep => rfl

/-! ## Acceptance -/

/-- In `IDLE` every instruction is accepted or refused by its own check, with its own tag and payload (R66 T1, T2). -/
theorem exec_idle (i : Instr) {s : State} (hidle : s.fsm = .idle) :
    exec i s = .next (acceptChecked i.tag (argError i) (payloadOf i) s) := by
  have hexchange (op check p decode) : exchange op check p decode s = .next (acceptChecked op check p s) := by
    simp [exchange, hidle]
  have hsend (op p fin) : sendOnly op p fin s = .next (acceptChecked op none p s) := by
    simp [sendOnly, hidle, acceptChecked]
  cases i with
  | sleep | rawSend cmd params => exact hsend _ _ _
  | _ => exact hexchange _ _ _ _

/-- After acceptance the registers name the instruction (R13, R14). -/
theorem inFlight_accept (i : Instr) (s : State) : inFlight (accept i.tag (payloadOf i) s) = some i :=
  inFlight_of_registers rfl (encode_eq_frameEncode i).symm

/-- Settles O29: a well-formed instruction passes its check, and the registers give it back. -/
theorem registersHoldTheCommand : Obligations.RegistersHoldTheCommand := by
  intro i s hwf hidle
  refine ⟨accept i.tag (payloadOf i) s, ?_, inFlight_accept i s, (encode_eq_frameEncode i).symm, rfl⟩
  rw [exec_idle i hidle, (argError_eq_none_iff i).2 hwf, acceptChecked]

/-! ## What one transition leaves alone -/

/-- Settles O31, by the eight things a transition can be. -/
theorem instructionFrame : Obligations.InstructionFrame := by
  intro i s t h
  rcases exec_cases h with ⟨hidle, rfl⟩ | ⟨_, hidle, _, rfl⟩ | ⟨hwrite, _, _, rfl⟩ | ⟨_, hwrite, _, _, rfl⟩ |
    ⟨_, _, hwrite, _, rfl⟩ | ⟨_, _, _, _, _, _, hread, hport, _, rfl⟩ | ⟨_, _, hread, _, rfl⟩ | ⟨_, rfl⟩
  · simp [hidle]
  · simp [hidle]
  · simp [hwrite]
  · simp [hwrite]
  · simp [hwrite]
  · simp [hread, hport]
  · simp [hread]
  · simp

end Sys2Proof.Proofs
end

section
/-! PROOFS. The invariant of the machine: it holds at reset, and every event keeps it. Before it, what a completion
does to the instruction in flight as an equation per phase, and the results that R52 lets an operation have. -/

namespace Sys2Proof.Proofs

open Machine Claims Laws

/-! ## A completion, phase by phase -/

/-- The completion rule of an operation's write (R70, R71, R72). -/
def writeDoneOf : OpTag → WriteResult → State → State
  | .sleep => writeDoneSleep
  | .rawSend => writeDoneRawSend
  | _ => writeDoneExchange

/-- In `WRITE` a completed write runs the operation's own completion rule. -/
theorem exec_write (i : Instr) {s : State} {w : WriteResult} (hwrite : s.fsm = .write) (hport : s.port = .wrote w) :
    exec i s = .next (writeDoneOf i.tag w (clearPort s)) := by
  have hexchange (op check p decode) :
      exchange op check p decode s = .next (writeDoneExchange w (clearPort s)) := by
    simp [exchange, hwrite, hport]
  have hsend (op p fin) : sendOnly op p fin s = .next (fin w (clearPort s)) := by
    simp [sendOnly, hwrite, hport]
  cases i with
  | sleep | rawSend cmd params => exact hsend _ _ _
  | _ => exact hexchange _ _ _ _

/-- In `READ` a completed read of an operation that awaits a reply is decoded by the operation's rule (R74 to R76). -/
theorem exec_read {i : Instr} {s : State} {r : ReadResult} (hreply : i.tag.expectsReply = true)
    (hread : s.fsm = .read) (hport : s.port = .got r) :
    exec i s = .next (readDone (decoderOf i.tag) r (clearPort s)) := by
  rw [exec_eq_exchange i hreply]
  simp [exchange, hread, hport]

/-- A completed write issues the read, reports the send, or raises one of the two write errors, which SLEEP does not
(R70 to R72). -/
theorem writeDoneOf_cases (op : OpTag) (w : WriteResult) (s : State) :
    (op.expectsReply = true ∧ writeDoneOf op w s = issueRead s) ∨
      ((op = .sleep ∨ op = .rawSend) ∧ writeDoneOf op w s = emit resultSent s) ∨
      (op ≠ .sleep ∧ ∃ c, (c = .writeErr ∨ c = .writeShort) ∧ writeDoneOf op w s = raiseTransportError c s) := by
  cases op with
  | sleep => exact .inr (.inl ⟨.inl rfl, rfl⟩)
  | rawSend =>
    rcases writeDoneRawSend_cases w s with ⟨_, e⟩ | ⟨_, _, _, e⟩ | ⟨_, e⟩
    · exact .inr (.inl ⟨.inr rfl, e⟩)
    · exact .inr (.inr ⟨nofun, _, .inr rfl, e⟩)
    · exact .inr (.inr ⟨nofun, _, .inl rfl, e⟩)
  | _ =>
    rcases writeDoneExchange_cases w s with ⟨_, e⟩ | ⟨_, _, _, e⟩ | ⟨_, e⟩
    · exact .inl ⟨rfl, e⟩
    · exact .inr (.inr ⟨nofun, _, .inr rfl, e⟩)
    · exact .inr (.inr ⟨nofun, _, .inl rfl, e⟩)

/-- The causes with which a read fails (R75, R102). -/
def isReadCause (c : Cause) : Prop := c = .readErr ∨ c = .readTimeout ∨ c = .readShort

/-- A completed read puts five bytes in `rbuf` and decodes them, or raises one of the three read errors (R74, R75). -/
theorem readDone_full_or_error (decode : ReplyWord → Result) (r : ReadResult) (s : State) :
    (∃ reply, readDone decode r s = readFull decode reply s) ∨
      ∃ c, isReadCause c ∧ readDone decode r s = raiseTransportError c s := by
  rcases readDone_cases decode r s with ⟨_, _, _, _, _, _, _, e⟩ | ⟨_, e⟩ | ⟨_, _, _, _, e⟩ | ⟨_, e⟩
  · exact .inl ⟨_, e⟩
  · exact .inr ⟨_, .inr (.inl rfl), e⟩
  · exact .inr ⟨_, .inr (.inr rfl), e⟩
  · exact .inr ⟨_, .inl rfl, e⟩

/-! ## The results R52 allows -/

theorem resultFits_of_tag {op : BitVec 4} {tag : OpTag} (h : opTagOfCode op = some tag) (rbuf : ReplyWord)
    (r : Result) : Safety.resultFits op rbuf r = Safety.resultOfOp tag rbuf r := by
  simp [Safety.resultFits, h]

theorem resultOfOp_sent {op : OpTag} (h : op = .sleep ∨ op = .rawSend) (rbuf : ReplyWord) :
    Safety.resultOfOp op rbuf resultSent = true := by
  rcases h with rfl | rfl <;> rfl

theorem resultOfOp_writeError {op : OpTag} {c : Cause} (hop : op ≠ .sleep) (hc : c = .writeErr ∨ c = .writeShort)
    (rbuf : ReplyWord) : Safety.resultOfOp op rbuf (resultTransportError c) = true := by
  rcases hc with rfl | rfl <;> simp [Safety.resultOfOp, resultTransportError, Cause.code, hop]

theorem resultOfOp_readError {op : OpTag} {c : Cause} (hop : op.expectsReply = true) (hc : isReadCause c)
    (rbuf : ReplyWord) : Safety.resultOfOp op rbuf (resultTransportError c) = true := by
  rcases hc with rfl | rfl | rfl <;> simp [Safety.resultOfOp, resultTransportError, Cause.code, hop]

/-! The four decoders with a choice, by the class of the ack byte (R85, R86, R93, R94, R96, R97). -/

theorem resultOfOp_decodeAuth (r : ReplyWord) : Safety.resultOfOp .authenticate r (decodeAuth r) = true := by
  simp only [decodeAuth]
  split
  · simp_all [Safety.resultOfOp]
  · split <;> simp_all [Safety.resultOfOp]

theorem resultOfOp_decodeLevel (r : ReplyWord) : Safety.resultOfOp .getUserLevel r (decodeLevel r) = true := by
  simp only [decodeLevel]
  split
  · simp_all [Safety.resultOfOp]
  · split <;> simp_all [Safety.resultOfOp]

theorem resultOfOp_decodeBaud (r : ReplyWord) : Safety.resultOfOp .setBaudRate r (decodeBaud r) = true := by
  simp only [decodeBaud]
  split <;> simp_all [Safety.resultOfOp]

theorem resultOfOp_decodeNextId (r : ReplyWord) :
    Safety.resultOfOp .getNextAvailableId r (decodeNextId r) = true := by
  simp only [decodeNextId]
  split <;> simp_all [Safety.resultOfOp, or_comm]

/-- What an operation decodes a reply to is a result that R52 allows it. -/
theorem resultOfOp_decoderOf {op : OpTag} (h : op.expectsReply = true) (r : ReplyWord) :
    Safety.resultOfOp op r (decoderOf op r) = true := by
  cases op with
  | rawSend | sleep => cases h
  | authenticate => exact resultOfOp_decodeAuth r
  | getUserLevel => exact resultOfOp_decodeLevel r
  | setBaudRate => exact resultOfOp_decodeBaud r
  | getNextAvailableId => exact resultOfOp_decodeNextId r
  | rawExch => simp [Safety.resultOfOp, decoderOf, decodeReply, decodeRaw]
  | getUserCount => simp [Safety.resultOfOp, decoderOf, decodeReply, decodeCount]
  | enroll | removeOne | removeAll | compareOne | setCompareLevel =>
    simp [Safety.resultOfOp, decoderOf, decodeReply, decodeAck, Safety.ackValued]

/-- A refusal by an instruction's own check (R68 lines 3 to 5) is a result of its operation. -/
theorem resultOfOp_argError {i : Instr} {c : RefuseCode} (h : argError i = some c) (rbuf : ReplyWord) :
    Safety.resultOfOp i.tag rbuf (resultRefused c) = true := by
  cases i with
  | enrollStart uid level | enrollIntermediate uid level | enrollEnd uid level =>
    obtain ⟨-, rfl⟩ : ¬ sendableLevel level = true ∧ RefuseCode.badLevel = c := by
      simpa [argError, checkLevel] using h
    rfl
  | setBaudRate new =>
    obtain ⟨-, rfl⟩ : ¬ sendableBaud new = true ∧ RefuseCode.badBaud = c := by
      simpa [argError, checkBaud] using h
    rfl
  | setCompareLevel lvl =>
    obtain ⟨-, rfl⟩ : ¬ compareLevelInRange lvl = true ∧ RefuseCode.badCompareLevel = c := by
      simpa [argError, checkCompareLevel] using h
    rfl
  | _ => cases h

/-- A command that names no instruction has a reserved tag, or is an ENROLL with a bad stage (R68 lines 1 and 2). -/
theorem decodeCommand_error {c : Command} {r : RefuseCode} (h : decodeCommand c = .error r) :
    (opTagOfCode c.op = none ∧ r = .reservedOp) ∨ (opTagOfCode c.op = some .enroll ∧ r = .badStage) := by
  unfold decodeCommand at h
  cases htag : opTagOfCode c.op with
  | none => simp_all
  | some tag =>
    cases tag with
    | enroll => cases hstage : stageOfByte c.s8 <;> simp_all
    | _ => simp_all

/-- The refusal of a command that names no instruction is a result that fits its op tag. -/
theorem resultFits_decodeCommand_error {c : Command} {r : RefuseCode} (h : decodeCommand c = .error r)
    (rbuf : ReplyWord) : Safety.resultFits c.op rbuf (resultRefused r) = true := by
  rcases decodeCommand_error h with ⟨htag, rfl⟩ | ⟨htag, rfl⟩
  · simp [Safety.resultFits, htag]
  · rw [resultFits_of_tag htag]; rfl

/-! ## The invariant, by the state a step ends in -/

theorem commandHeld_iff (s : State) :
    Safety.commandHeld s = true ↔ ∃ i, inFlight s = some i ∧ i.wellFormed = true ∧ s.frame = encode i := by
  unfold Safety.commandHeld
  cases inFlight s <;> simp

/-- The command held is a function of `op_q` and `frame`. -/
theorem commandHeld_congr {s t : State} (hop : t.opQ = s.opQ) (hframe : t.frame = s.frame) :
    Safety.commandHeld t = Safety.commandHeld s := by
  simp [Safety.commandHeld, inFlight_congr hop hframe, hframe]

theorem inv_of_idle {s : State} (hport : s.port = .quiet) (hidle : s.fsm = .idle) : Safety.Inv s := by
  simp [Safety.Inv, hport, hidle]

theorem inv_of_write {s : State} (hport : s.port = .quiet) (hwrite : s.fsm = .write)
    (hheld : Safety.commandHeld s = true) : Safety.Inv s := by
  simp [Safety.Inv, hport, hwrite, hheld]

theorem inv_of_done {s : State} {tag : OpTag} (hport : s.port = .quiet) (hdone : s.fsm = .done)
    (htag : opTagOfCode s.opQ = some tag) (hres : Safety.resultOfOp tag s.rbuf s.res = true) : Safety.Inv s := by
  simp [Safety.Inv, hport, hdone, resultFits_of_tag htag, hres]

/-! ## Every event keeps it -/

/-- Accepting or refusing an instruction: a command held after acceptance, a fitting result after refusal. -/
theorem acceptChecked_inv (i : Instr) {s : State} (hport : s.port = .quiet) :
    Safety.Inv (acceptChecked i.tag (argError i) (payloadOf i) s) := by
  rcases acceptChecked_cases i.tag (argError i) (payloadOf i) s with ⟨hok, e⟩ | ⟨c, hc, e⟩ <;> rw [e]
  · have hheld : Safety.commandHeld (accept i.tag (payloadOf i) s) = true :=
      (commandHeld_iff _).2 ⟨i, inFlight_accept i s, (argError_eq_none_iff i).1 hok, (encode_eq_frameEncode i).symm⟩
    exact inv_of_write hport rfl hheld
  · exact inv_of_done hport rfl (opTagOfCode_code i.tag) (resultOfOp_argError hc s.rbuf)

theorem presentCommand_inv {c : Command} {s t : State} (hinv : Safety.Inv s) (h : presentCommand c s = .next t) :
    Safety.Inv t := by
  have hport : s.port = .quiet := hinv.1
  rcases presentCommand_cases h with ⟨_, rfl⟩ | ⟨hidle, i, _, hexec⟩ | ⟨_, r, hr, rfl⟩
  · exact hinv
  · obtain rfl : acceptChecked i.tag (argError i) (payloadOf i) s = t := by simpa [exec_idle i hidle] using hexec
    exact acceptChecked_inv i hport
  · simp [Safety.Inv, hport, resultFits_decodeCommand_error hr]

/-- A completed write of a held command: the read issued with its deadline ahead, or a fitting result. -/
theorem deliver_write_inv {s t : State} {w : WriteResult} (hwrite : s.fsm = .write) (hport : s.port = .wrote w)
    (hheld : Safety.commandHeld s = true) (h : deliver s = .next t) : Safety.Inv t := by
  obtain ⟨i, hi, -, -⟩ := (commandHeld_iff s).1 hheld
  have htag : opTagOfCode s.opQ = some i.tag := opTagOfCode_of_inFlight hi
  obtain rfl : writeDoneOf i.tag w (clearPort s) = t := by
    simpa [deliver_eq_exec hi, exec_write i hwrite hport] using h
  rcases writeDoneOf_cases i.tag w (clearPort s) with ⟨hreply, e⟩ | ⟨hop, e⟩ | ⟨hop, c, hc, e⟩ <;> rw [e]
  · have hheld' : Safety.commandHeld (issueRead (clearPort s)) = true := (commandHeld_congr rfl rfl).trans hheld
    simp [Safety.Inv, hheld', expectsReply, htag, hreply]
  · exact inv_of_done rfl rfl htag (resultOfOp_sent hop s.rbuf)
  · exact inv_of_done rfl rfl htag (resultOfOp_writeError hop hc s.rbuf)

/-- A completed read of a held command that awaits a reply: a fitting result. -/
theorem deliver_read_inv {s t : State} {r : ReadResult} (hread : s.fsm = .read) (hport : s.port = .got r)
    (hheld : Safety.commandHeld s = true) (hreply : expectsReply s.opQ = true) (h : deliver s = .next t) :
    Safety.Inv t := by
  obtain ⟨i, hi, -, -⟩ := (commandHeld_iff s).1 hheld
  have htag : opTagOfCode s.opQ = some i.tag := opTagOfCode_of_inFlight hi
  replace hreply : i.tag.expectsReply = true := by simpa [expectsReply, htag] using hreply
  obtain rfl : readDone (decoderOf i.tag) r (clearPort s) = t := by
    simpa [deliver_eq_exec hi, exec_read hreply hread hport] using h
  rcases readDone_full_or_error (decoderOf i.tag) r (clearPort s) with ⟨reply, e⟩ | ⟨c, hc, e⟩ <;> rw [e]
  · exact inv_of_done rfl rfl htag (resultOfOp_decoderOf hreply reply)
  · exact inv_of_done rfl rfl htag (resultOfOp_readError hreply hc s.rbuf)

/-- The event of a write's completion: `u` is what the Transport makes of `s`. -/
theorem writeEvent_inv {s t u : State} {w : WriteResult} (hinv : Safety.Inv s)
    (h : (if s.fsm = .write then deliver u else .next s) = .next t) (hport : u.port = .wrote w)
    (hfsm : u.fsm = s.fsm) (hop : u.opQ = s.opQ) (hframe : u.frame = s.frame) : Safety.Inv t := by
  rcases deliver_or_eq_of_ite h with ⟨hwrite, hdel⟩ | ⟨_, rfl⟩
  · obtain ⟨-, hwriteInv, -⟩ := hinv
    exact deliver_write_inv (hfsm.trans hwrite) hport ((commandHeld_congr hop hframe).trans (hwriteInv hwrite)) hdel
  · exact hinv

/-- A read's completion delivered: `u` is what the Transport makes of `s`. -/
theorem readDelivery_inv {s t u : State} {r : ReadResult} (hinv : Safety.Inv s) (hread : s.fsm = .read)
    (h : deliver u = .next t) (hport : u.port = .got r) (hfsm : u.fsm = s.fsm) (hop : u.opQ = s.opQ)
    (hframe : u.frame = s.frame) : Safety.Inv t := by
  obtain ⟨-, -, hreadInv, -⟩ := hinv
  obtain ⟨hheld, hreply, -⟩ := hreadInv hread
  exact deliver_read_inv (hfsm.trans hread) hport ((commandHeld_congr hop hframe).trans hheld) (hop ▸ hreply) h

/-- The event of a read's completion. -/
theorem readEvent_inv {s t u : State} {r : ReadResult} (hinv : Safety.Inv s)
    (h : (if s.fsm = .read then deliver u else .next s) = .next t) (hport : u.port = .got r)
    (hfsm : u.fsm = s.fsm) (hop : u.opQ = s.opQ) (hframe : u.frame = s.frame) : Safety.Inv t := by
  rcases deliver_or_eq_of_ite h with ⟨hread, hdel⟩ | ⟨_, rfl⟩
  · exact readDelivery_inv hinv hread hdel hport hfsm hop hframe
  · exact hinv

/-- Time that completes no read stops at the deadline of an outstanding one (R35). -/
theorem passTime_inv {dt : Nat} {s t : State} (hinv : Safety.Inv s) (h : passTime dt s = .next t) :
    Safety.Inv t := by
  rcases passTime_cases h with ⟨⟨hread, _⟩, hdel⟩ | ⟨⟨hread, _⟩, hdel⟩ | ⟨hfull, hlate, rfl⟩
  · exact readDelivery_inv hinv hread hdel rfl rfl rfl rfl
  · exact readDelivery_inv hinv hread hdel rfl rfl rfl rfl
  · obtain ⟨hport, hwriteInv, hreadInv, hdoneInv⟩ := hinv
    refine ⟨hport, hwriteInv, fun hread => ?_, hdoneInv⟩
    obtain ⟨hheld, hreply, hahead, hbound⟩ := hreadInv hread
    have hintime : s.now + dt ≤ s.readDeadline := by
      by_contra hpast
      exact hlate ⟨hread, by_contra fun hlen => hfull ⟨hread, by omega, by omega⟩, by omega⟩
    exact ⟨hheld, hreply, hintime, by show s.readDeadline ≤ s.now + dt + s.params.readTimeout; omega⟩

theorem handle_inv {e : Event} {s t : State} (hinv : Safety.Inv s) (h : handle e s = .next t) : Safety.Inv t := by
  cases e with
  | present c => exact presentCommand_inv hinv h
  | elapse dt => exact passTime_inv hinv h
  | writeOk n => exact writeEvent_inv (u := finishWriteOk n s) hinv h rfl rfl rfl rfl
  | writeErr k => exact writeEvent_inv (u := finishWriteErr k s) hinv h rfl rfl rfl rfl
  | readReturn => exact readEvent_inv (u := finishRead s) hinv h rfl rfl rfl rfl
  | readErr j => exact readEvent_inv (u := finishReadErr j s) hinv h rfl rfl rfl rfl
  | reset k j =>
    obtain rfl : resetMachine k j s = t := by simpa [handle] using h
    exact inv_of_idle rfl rfl
  | take =>
    simp only [handle] at h
    split at h <;> cases h
    · exact inv_of_idle hinv.1 rfl
    · exact hinv
  | sample =>
    simp only [handle] at h
    split at h <;> cases h
    exact hinv
  | deviceSends bytes => cases h; exact hinv
  | configure rate => cases h; exact hinv
  | foreign => cases h

/-- Settles O53, by the event the step handles. -/
theorem invariantKept : Obligations.InvariantKept := by
  intro s t hinv h
  rcases step_cases h with ⟨_, rfl⟩ | ⟨e, rest, _, hhandle⟩
  · exact hinv
  · exact handle_inv (s := { s with script := rest }) hinv hhandle

/-- Settles O52: reset ends in `IDLE` with the port quiet. -/
theorem invariantAtReset : Obligations.InvariantAtReset := inv_of_idle rfl rfl

/-- Settles O47, each register by the model's reset state. -/
theorem resetValues : Obligations.ResetValues :=
  ⟨rfl, rfl, rfl, rfl, rfl, rfl, rfl, rfl, rfl, rfl, rfl, rfl⟩

end Sys2Proof.Proofs
end

section
/-! PROOFS. Where a step stops: the two events that end a run. -/

namespace Sys2Proof.Proofs

open Machine Claims Laws

/-- The one fault: the host reads the result port with no result on it (R24). -/
theorem handle_fault_iff (e : Event) (s : State) (r : Fault) :
    handle e s = .fault r ↔ r = .resultNotValid ∧ s.resValid = false ∧ e = .sample := by
  constructor
  · intro h
    rcases handle_next_or_stop e s with ⟨t, hnext⟩ | ⟨rfl, hbusy, hfault⟩ | ⟨_, hrefused⟩
    · cases hnext.symm.trans h
    · cases hfault.symm.trans h
      exact ⟨rfl, by simp [State.resValid, hbusy], rfl⟩
    · cases hrefused.symm.trans h
  · rintro ⟨rfl, hvalid, rfl⟩
    simp [handle, resultPort, hvalid]

/-- The one refusal: another agent on the Transport (R122). -/
theorem handle_refused_iff (e : Event) (s : State) (r : Refusal) :
    handle e s = .refused r ↔ r = .foreignTransportUse ∧ e = .foreign := by
  constructor
  · intro h
    rcases handle_next_or_stop e s with ⟨t, hnext⟩ | ⟨_, _, hfault⟩ | ⟨rfl, hrefused⟩
    · cases hnext.symm.trans h
    · cases hfault.symm.trans h
    · cases hrefused.symm.trans h
      exact ⟨rfl, rfl⟩
  · rintro ⟨rfl, rfl⟩
    rfl

/-- Settles O43: a step stops exactly where the event it handles stops, and an empty schedule stops nothing. -/
theorem whereAStepStops : Obligations.WhereAStepStops := by
  intro s
  cases hs : s.script with
  | nil => simp [step_nil hs, comesNext, hs]
  | cons e rest =>
    have hvalid : ({ s with script := rest } : State).resValid = s.resValid := rfl
    simp [step_cons hs, handle_fault_iff, handle_refused_iff, hvalid, comesNext, hs]

end Sys2Proof.Proofs
end

section
/-! PROOFS. The streams, and the results the host has taken: what each event can do to the three, said once, and the
statements that follow from it. Before it, a completion in the phase that awaits it as the delivery it is. -/

namespace Sys2Proof.Proofs

open Machine Claims Laws

/-! ## A completion in the phase that awaits it -/

theorem step_writeOk {s : State} {n : Fin 9} {rest : List Event} (hwrite : s.fsm = .write)
    (hnext : comesNext s (.writeOk n) rest) : step s = deliver (finishWriteOk n { s with script := rest }) := by
  simp [step_cons hnext, handle, hwrite]

theorem step_writeErr {s : State} {k : Fin 9} {rest : List Event} (hwrite : s.fsm = .write)
    (hnext : comesNext s (.writeErr k) rest) : step s = deliver (finishWriteErr k { s with script := rest }) := by
  simp [step_cons hnext, handle, hwrite]

theorem step_readReturn {s : State} {rest : List Event} (hread : s.fsm = .read)
    (hnext : comesNext s .readReturn rest) : step s = deliver (finishRead { s with script := rest }) := by
  simp [step_cons hnext, handle, hread]

theorem step_readErr {s : State} {j : Fin 6} {rest : List Event} (hread : s.fsm = .read)
    (hnext : comesNext s (.readErr j) rest) : step s = deliver (finishReadErr j { s with script := rest }) := by
  simp [step_cons hnext, handle, hread]

/-! ## What the block and the host exchange with the outside -/

/-- The TX stream, the RX stream, and the results the host has taken. -/
def channels (s : State) : List Byte × List Byte × List Result := (s.tx, s.rx, s.taken)

theorem channels_eq_iff {s : State} {tx rx : List Byte} {taken : List Result} :
    channels s = (tx, rx, taken) ↔ s.tx = tx ∧ s.rx = rx ∧ s.taken = taken := by
  simp [channels]

/-- No transition of an instruction touches them: the Transport, the Device and the Host do. -/
theorem exec_channels {i : Instr} {s t : State} (h : exec i s = .next t) : channels t = channels s := by
  obtain ⟨htx, hrx, _, _, htaken, _⟩ := instructionFrame i s t h
  exact channels_eq_iff.2 ⟨htx, hrx, htaken⟩

theorem deliver_channels {s t : State} (h : deliver s = .next t) : channels t = channels s := by
  rcases deliver_cases h with ⟨_, _, hexec⟩ | ⟨_, rfl⟩
  · exact exec_channels hexec
  · rfl

theorem presentCommand_channels {c : Command} {s t : State} (h : presentCommand c s = .next t) :
    channels t = channels s := by
  rcases presentCommand_cases h with ⟨_, rfl⟩ | ⟨_, _, _, hexec⟩ | ⟨_, _, _, rfl⟩
  · rfl
  · exact exec_channels hexec
  · rfl

/-- What an event can do to the channels: nothing, a prefix of the frame sent out of `WRITE`, at most five bytes
received off the front out of `READ`, the Device's bytes appended, or the held result taken in `DONE`. -/
inductive ChannelStep (e : Event) (s t : State) : Prop where
  | kept (h : channels t = (s.tx, s.rx, s.taken))
  | sent (k : Nat) (hwrite : s.fsm = .write)
      (h : channels t = (s.tx ++ (frameBytes s.frame).take k, s.rx, s.taken))
  | received (j : Nat) (hj : j ≤ 5) (hread : s.fsm = .read) (h : channels t = (s.tx, s.rx.drop j, s.taken))
  | appended (bytes : List Byte) (he : e = .deviceSends bytes) (h : channels t = (s.tx, s.rx ++ bytes, s.taken))
  | took (he : e = .take) (hdone : s.fsm = .done) (h : channels t = (s.tx, s.rx, s.taken ++ [s.res]))

/-- A completion handled: what the Transport made of the channels in `u` is what the event does to them. -/
theorem completion_channelStep {e : Event} {p : Prop} [Decidable p] {s u t : State}
    (hu : p → channels t = channels u → ChannelStep e s t)
    (h : (if p then deliver u else .next s) = .next t) : ChannelStep e s t := by
  rcases deliver_or_eq_of_ite h with ⟨hp, hdel⟩ | ⟨_, rfl⟩
  · exact hu hp (deliver_channels hdel)
  · exact .kept rfl

theorem passTime_channelStep {e : Event} {dt : Nat} {s t : State} (h : passTime dt s = .next t) :
    ChannelStep e s t := by
  rcases passTime_cases h with ⟨⟨hread, _⟩, hdel⟩ | ⟨⟨hread, _⟩, hdel⟩ | ⟨_, _, rfl⟩
  · exact .received 5 le_rfl hread (deliver_channels hdel)
  · exact .received 5 le_rfl hread (deliver_channels hdel)
  · exact .kept rfl

/-- Reset touches the streams only where it abandons an outstanding request (R117, R118). -/
theorem resetMachine_channelStep (e : Event) (k : Fin 9) (j : Fin 5) (s : State) :
    ChannelStep e s (resetMachine k j s) := by
  cases hfsm : s.fsm with
  | write => exact .sent k hfsm (by simp [channels, resetMachine, abandonRequest, hfsm])
  | read => exact .received j (by omega) hfsm (by simp [channels, resetMachine, abandonRequest, hfsm])
  | idle | done => exact .kept (by simp [channels, resetMachine, abandonRequest, hfsm])

theorem handle_channelStep {e : Event} {s t : State} (h : handle e s = .next t) : ChannelStep e s t := by
  cases e with
  | present c => exact .kept (presentCommand_channels h)
  | elapse dt => exact passTime_channelStep h
  | writeOk n => exact completion_channelStep (u := finishWriteOk n s) (.sent n) h
  | writeErr k => exact completion_channelStep (u := finishWriteErr k s) (.sent k) h
  | readReturn => exact completion_channelStep (u := finishRead s) (.received 5 le_rfl) h
  | readErr j => exact completion_channelStep (u := finishReadErr j s) (.received j (by omega)) h
  | reset k j =>
    obtain rfl : resetMachine k j s = t := by simpa [handle] using h
    exact resetMachine_channelStep _ k j s
  | take =>
    simp only [handle] at h
    split at h
    case isTrue hvalid =>
      cases h
      exact .took rfl (by simpa [State.resValid] using hvalid) rfl
    case isFalse =>
      cases h
      exact .kept rfl
  | sample =>
    simp only [handle] at h
    split at h <;> cases h
    exact .kept rfl
  | deviceSends bytes => cases h; exact .appended bytes rfl rfl
  | configure rate => cases h; exact .kept rfl
  | foreign => cases h

/-! ## The statements -/

/-- Settles O54: the event is the Device's append, whatever the state. -/
theorem deviceAppendsAtTheEnd : Obligations.DeviceAppendsAtTheEnd := by
  intro s bytes rest hnext
  exact step_cons hnext

/-- Settles O34: the bytes go out at the completion, and its delivery touches no stream. -/
theorem writeAppendsAPrefixOfTheFrame : Obligations.WriteAppendsAPrefixOfTheFrame := by
  intro s rest hwrite
  constructor
  · intro n hnext
    obtain ⟨t, hdel⟩ := deliver_next (finishWriteOk n { s with script := rest })
    obtain ⟨htx, hrx, _⟩ := channels_eq_iff.1 (deliver_channels hdel)
    exact ⟨t, (step_writeOk hwrite hnext).trans hdel, hrx, htx⟩
  · intro k hnext
    obtain ⟨t, hdel⟩ := deliver_next (finishWriteErr k { s with script := rest })
    obtain ⟨htx, hrx, _⟩ := channels_eq_iff.1 (deliver_channels hdel)
    exact ⟨t, (step_writeErr hwrite hnext).trans hdel, hrx, htx⟩

/-- Settles O36, by what the step's event does to the channels. -/
theorem streamsChangeOnlyAtTheirEnds : Obligations.StreamsChangeOnlyAtTheirEnds := by
  intro s t h
  rcases step_cases h with ⟨_, rfl⟩ | ⟨e, rest, hnext, hhandle⟩
  · exact ⟨⟨0, by simp⟩, fun _ => rfl, .inl ⟨0, by omega, rfl, fun _ => rfl⟩⟩
  · rcases handle_channelStep hhandle with hch | ⟨k, hwrite, hch⟩ | ⟨j, hj, hread, hch⟩ | ⟨bytes, rfl, hch⟩ |
      ⟨_, _, hch⟩ <;>
      obtain ⟨htx, hrx, _⟩ := channels_eq_iff.1 hch
    · exact ⟨⟨0, by simpa using htx⟩, fun _ => htx, .inl ⟨0, by omega, hrx, fun _ => rfl⟩⟩
    · exact ⟨⟨k, htx⟩, fun hbusy => absurd hwrite hbusy, .inl ⟨0, by omega, hrx, fun _ => rfl⟩⟩
    · exact ⟨⟨0, by simpa using htx⟩, fun _ => htx, .inl ⟨j, hj, hrx, fun hbusy => absurd hread hbusy⟩⟩
    · exact ⟨⟨0, by simpa using htx⟩, fun _ => htx, .inr ⟨bytes, rest, hnext, hrx⟩⟩
    · exact ⟨⟨0, by simpa using htx⟩, fun _ => htx, .inl ⟨0, by omega, hrx, fun _ => rfl⟩⟩

/-- Settles O41: of the events, only a take in `DONE` reaches the results taken. -/
theorem resultsTakenInOrder : Obligations.ResultsTakenInOrder := by
  intro s t h
  rcases step_cases h with ⟨_, rfl⟩ | ⟨e, rest, hnext, hhandle⟩
  · exact .inl rfl
  · rcases handle_channelStep hhandle with hch | ⟨_, _, hch⟩ | ⟨_, _, _, hch⟩ | ⟨_, _, hch⟩ | ⟨rfl, hdone, hch⟩ <;>
      obtain ⟨_, _, htaken⟩ := channels_eq_iff.1 hch
    case took => exact .inr ⟨rest, hnext, hdone, htaken⟩
    all_goals exact .inl htaken

end Sys2Proof.Proofs
end

section
/-! PROOFS. The timed read of an operation that awaits a reply: its completion as an equation, with five bytes, with
fewer and with an error, and the statements on what a read consumes and on its deadline. -/

namespace Sys2Proof.Proofs

open Machine Claims Laws

/-! ## The operation that reads, and its decoder -/

/-- Every defined tag in `op_q` has an instruction in flight (R13). -/
theorem exists_inFlight {s : State} {op : OpTag} (htag : opTagOfCode s.opQ = some op) :
    ∃ i, inFlight s = some i ∧ i.tag = op := by
  have hsome : ∃ i, inFlight s = some i := by
    unfold inFlight
    rw [htag]
    cases op <;> exact ⟨_, rfl⟩
  obtain ⟨i, hi⟩ := hsome
  exact ⟨i, hi, by simpa [htag] using (opTagOfCode_of_inFlight hi).symm⟩

theorem expectsReply_iff (op : BitVec 4) :
    expectsReply op = true ↔ ∃ tag, opTagOfCode op = some tag ∧ tag.expectsReply = true := by
  unfold expectsReply
  cases opTagOfCode op <;> simp

/-- An operation that awaits a reply has a decode rule (R76). -/
theorem decodeReply_eq_some {op : OpTag} (h : op.expectsReply = true) (r : ReplyWord) :
    decodeReply op r = some (decoderOf op r) := by
  cases op with
  | rawSend | sleep => cases h
  | _ => rfl

/-! The four decoders with a choice put the raw reply in the result on every branch (R52). -/

theorem decodeAuth_reply (r : ReplyWord) : (decodeAuth r).reply = r := by
  simp only [decodeAuth]
  split
  · rfl
  · split <;> rfl

theorem decodeLevel_reply (r : ReplyWord) : (decodeLevel r).reply = r := by
  simp only [decodeLevel]
  split
  · rfl
  · split <;> rfl

theorem decodeBaud_reply (r : ReplyWord) : (decodeBaud r).reply = r := by
  simp only [decodeBaud]
  split <;> rfl

theorem decodeNextId_reply (r : ReplyWord) : (decodeNextId r).reply = r := by
  simp only [decodeNextId]
  split <;> rfl

theorem decoderOf_reply {op : OpTag} (h : op.expectsReply = true) (r : ReplyWord) : (decoderOf op r).reply = r := by
  cases op with
  | rawSend | sleep => cases h
  | authenticate => exact decodeAuth_reply r
  | getUserLevel => exact decodeLevel_reply r
  | setBaudRate => exact decodeBaud_reply r
  | getNextAvailableId => exact decodeNextId_reply r
  | _ => rfl

/-! ## Time passing, branch by branch (R35) -/

theorem passTime_full {dt : Nat} {s : State} (hread : s.fsm = .read) (hfull : 5 ≤ s.rx.length) (hpos : 0 < dt) :
    passTime dt s = deliver (finishRead { s with script := .elapse dt :: s.script }) :=
  if_pos ⟨hread, hfull, hpos⟩

theorem passTime_late {dt : Nat} {s : State} (hread : s.fsm = .read) (hshort : s.rx.length < 5)
    (hlate : s.readDeadline < s.now + dt) :
    passTime dt s =
      deliver (finishRead { s with script := .elapse (s.now + dt - max s.now s.readDeadline) :: s.script }) := by
  rw [passTime, if_neg fun ⟨_, hfull, _⟩ => absurd hshort (by omega), if_pos ⟨hread, hshort, hlate⟩]

theorem passTime_waits {dt : Nat} {s : State}
    (h : s.fsm = .read → ¬ (5 ≤ s.rx.length ∧ 0 < dt) ∧ ¬ (s.rx.length < 5 ∧ s.readDeadline < s.now + dt)) :
    passTime dt s = .next { s with now := s.now + dt } := by
  rw [passTime, if_neg fun ⟨hread, hfull⟩ => (h hread).1 hfull, if_neg fun ⟨hread, hlate⟩ => (h hread).2 hlate]

/-! ## The completion of a read -/

/-- The cause of a read that timed out with these bytes: none, or 1 to 4 (R75). -/
def shortCause (bs : List Byte) : Cause := if bs = [] then .readTimeout else .readShort

theorem resultTransportError_shortCause (bs : List Byte) :
    resultTransportError (shortCause bs) = res .transportError (if bs = [] then 0x04 else 0x05) 0 0 := by
  unfold shortCause
  split <;> rfl

theorem readDone_short (decode : ReplyWord → Result) {bs : List Byte} (hshort : bs.length < 5) (s : State) :
    readDone decode (.ok bs) s = raiseTransportError (shortCause bs) s := by
  rcases readDone_cases decode (.ok bs) s with ⟨_, _, _, _, _, more, hbs, _⟩ | ⟨hbs, e⟩ | ⟨bs', hbs, hpos, _, e⟩ |
    ⟨hbs, _⟩ <;> cases hbs
  · simp only [List.length_cons] at hshort
    omega
  · simpa [shortCause] using e
  · simpa [shortCause, List.length_pos_iff.1 hpos] using e

section
variable {s : State} {op : OpTag} (hread : s.fsm = .read) (htag : opTagOfCode s.opQ = some op)
  (hreply : op.expectsReply = true)
include hread htag hreply

/-- A read's completion is decoded by the operation of `op_q` (R74 to R76). -/
theorem deliver_read {r : ReadResult} (hport : s.port = .got r) :
    deliver s = .next (readDone (decoderOf op) r (clearPort s)) := by
  obtain ⟨i, hi, rfl⟩ := exists_inFlight htag
  rw [deliver_eq_exec hi, exec_read hreply hread hport]

/-- With five bytes there the read takes them, and no time passes (R34, R74). -/
theorem deliver_finishRead_full {r0 r1 r2 r3 r4 : Byte} {more : List Byte}
    (hrx : s.rx = r0 :: r1 :: r2 :: r3 :: r4 :: more) :
    deliver (finishRead s) =
      .next (readFull (decoderOf op) (packReply r0 r1 r2 r3 r4) { s with rx := more, port := .quiet }) := by
  have hnow : returnTime s = s.now := if_neg (by simp only [hrx, List.length_cons]; omega)
  rw [deliver_read (s := finishRead s) hread htag hreply rfl]
  simp [hrx, readDone, clearPort, finishRead, dropReceived, hnow]

/-- With fewer the read takes them all, at its deadline (R35, R75). -/
theorem deliver_finishRead_short (hshort : s.rx.length < 5) :
    deliver (finishRead s) = .next (raiseTransportError (shortCause s.rx)
      { s with rx := [], now := max s.now s.readDeadline, port := .quiet }) := by
  have hdrop : s.rx.drop 5 = [] := List.drop_eq_nil_of_le hshort.le
  have htake : s.rx.take 5 = s.rx := List.take_of_length_le hshort.le
  rw [deliver_read (s := finishRead s) hread htag hreply rfl, htake, readDone_short _ hshort]
  simp [clearPort, finishRead, dropReceived, returnTime, hshort, hdrop]

/-- A failed read loses a prefix, and no time passes (R37, R75). -/
theorem deliver_finishReadErr (j : Fin 6) :
    deliver (finishReadErr j s) =
      .next (raiseTransportError .readErr { s with rx := s.rx.drop j, port := .quiet }) :=
  deliver_read (s := finishReadErr j s) hread htag hreply rfl

/-- The step of a full read (R34, R74). -/
theorem step_fullRead {r0 r1 r2 r3 r4 : Byte} {more : List Byte} {rest : List Event}
    (hrx : s.rx = r0 :: r1 :: r2 :: r3 :: r4 :: more) (hnext : comesNext s .readReturn rest) :
    step s = .next (readFull (decoderOf op) (packReply r0 r1 r2 r3 r4)
      { s with rx := more, port := .quiet, script := rest }) :=
  (step_readReturn hread hnext).trans
    (deliver_finishRead_full (s := { s with script := rest }) hread htag hreply hrx)

end

/-! ## The statements -/

/-- Settles O35, by the three completions of a read. -/
theorem readConsumesFromTheFront : Obligations.ReadConsumesFromTheFront := by
  intro s rest hread hexpects
  obtain ⟨op, htag, hreply⟩ := (expectsReply_iff s.opQ).1 hexpects
  refine ⟨fun r0 r1 r2 r3 r4 more hrx hnext => ?full, fun hshort hnext => ?short, fun j hnext => ?err⟩
  case full =>
    exact ⟨_, step_fullRead hread htag hreply hrx hnext, rfl, rfl, decoderOf_reply hreply _, rfl, rfl⟩
  case short =>
    have hdel := deliver_finishRead_short (s := { s with script := rest }) hread htag hreply (Nat.lt_succ_of_le hshort)
    exact ⟨_, (step_readReturn hread hnext).trans hdel, rfl, rfl, rfl, rfl, resultTransportError_shortCause s.rx⟩
  case err =>
    have hdel := deliver_finishReadErr (s := { s with script := rest }) hread htag hreply j
    exact ⟨_, (step_readErr hread hnext).trans hdel, List.drop_eq_drop_min, rfl, rfl, rfl, rfl⟩

/-- Settles O45: time completes the read with five bytes or past its deadline, and otherwise moves the clock. -/
theorem readTimeout : Obligations.ReadTimeout := by
  intro s op dt rest hread htag hreply hahead hnext
  have hstep : step s = passTime dt { s with script := rest } := step_cons hnext
  refine ⟨fun r0 r1 r2 r3 r4 more hrx hpos => ?full, fun hshort hlate => ?short, fun hintime => ?waits⟩
  case full =>
    have hfull : 5 ≤ s.rx.length := by simp [hrx]
    refine ⟨_, decodeReply_eq_some hreply _, ?_⟩
    rw [hstep, passTime_full (s := { s with script := rest }) hread hfull hpos]
    exact deliver_finishRead_full (s := { s with script := .elapse dt :: rest }) hread htag hreply hrx
  case short =>
    rw [hstep, passTime_late (s := { s with script := rest }) hread hshort hlate,
      deliver_finishRead_short (s := { s with script := _ :: rest }) hread htag hreply hshort]
    simp [raiseTransportError, emit, resultTransportError_shortCause, hahead]
  case waits =>
    have hnone : ¬ (5 ≤ s.rx.length ∧ 0 < dt) ∧ ¬ (s.rx.length < 5 ∧ s.readDeadline < s.now + dt) := by omega
    rw [hstep, passTime_waits (s := { s with script := rest }) fun _ => hnone]

end Sys2Proof.Proofs
end

section
/-! PROOFS. A whole exchange as three steps: the command accepted, the frame written in full, the reply read. -/

namespace Sys2Proof.Proofs

open Machine Claims Laws

/-- A run goes on from where its first step ends. -/
theorem run_succ {M : Host.Core} {s t : M.State} (k : Nat) (h : M.step s = .next t) : M.run (k + 1) s = M.run k t := by
  rw [Host.Core.run, h]

/-- In `IDLE` a command is one transition of the instruction its fields name (R67). -/
theorem presentCommand_idle {s : State} {c : Command} {i : Instr} (hidle : s.fsm = .idle)
    (hdecode : decodeCommand c = .ok i) : presentCommand c s = exec i s := by
  simp [presentCommand, hidle, hdecode]

/-- In `IDLE` a well-formed instruction presented on the port is accepted (R66 T1). -/
theorem step_present_wellFormed {s : State} {i : Instr} {rest : List Event} (hwf : i.wellFormed = true)
    (hidle : s.fsm = .idle) (hnext : comesNext s (.present (encodeCommand i)) rest) :
    step s = .next (accept i.tag (payloadOf i) { s with script := rest }) := by
  have hcheck : argError i = none := (argError_eq_none_iff i).2 hwf
  rw [step_cons hnext, handle,
    presentCommand_idle (s := { s with script := rest }) hidle (decodeCommand_encodeCommand i),
    exec_idle i (s := { s with script := rest }) hidle, hcheck, acceptChecked]

/-- A full write of an operation that awaits a reply issues the read (R70). -/
theorem writeDoneOf_full {op : OpTag} (h : op.expectsReply = true) (s : State) :
    writeDoneOf op (.ok 8) s = issueRead s := by
  cases op with
  | rawSend | sleep => cases h
  | _ => rfl

/-- A full write of an operation that awaits a reply puts the whole frame out and issues the read (R70, R73). -/
theorem step_fullWrite {s : State} {i : Instr} {rest : List Event} (hi : inFlight s = some i)
    (hreply : i.tag.expectsReply = true) (hwrite : s.fsm = .write) (hnext : comesNext s (.writeOk 8) rest) :
    step s = .next (issueRead { s with tx := s.tx ++ frameBytes s.frame, port := .quiet, script := rest }) := by
  rw [step_writeOk hwrite hnext, deliver_eq_exec (s := finishWriteOk 8 { s with script := rest }) hi,
    exec_write i (s := finishWriteOk 8 { s with script := rest }) hwrite rfl, writeDoneOf_full hreply]
  rfl

/-- Settles O50: the three steps one after the other. -/
theorem wholeExchange : Obligations.WholeExchange := by
  intro s i r0 r1 r2 r3 r4 more rest hwf hreply hidle hrx hscript
  refine ⟨_, decodeReply_eq_some hreply _, ?_⟩
  have haccepted := step_present_wellFormed hwf hidle hscript
  have hsent := step_fullWrite (inFlight_accept i { s with script := .writeOk 8 :: .readReturn :: rest }) hreply rfl rfl
  have hreceived := step_fullRead (s := issueRead { accept i.tag (payloadOf i) s with
    tx := s.tx ++ frameBytes (frameEncode (payloadOf i)), port := .quiet, script := .readReturn :: rest })
    rfl (opTagOfCode_code i.tag) hreply hrx rfl
  calc Host.Core.run core 3 s
    _ = Host.Core.run core 2 _ := run_succ (M := core) 2 haccepted
    _ = Host.Core.run core 1 _ := run_succ (M := core) 1 hsent
    _ = Host.Core.run core 0 _ := run_succ (M := core) 0 hreceived
    _ = .next _ := by rw [encode_eq_frameEncode i]; rfl

end Sys2Proof.Proofs
end

section
/-! PROOFS. The encodings: the frame of an instruction and the decoder of a frame word, each way round, and the
operation each op tag names. Both round trips rest on one reading of a table row: the FrameCodec's frame of its
payload. -/

namespace Sys2Proof.Proofs

open Machine Claims Laws

/-! ## The fields of a frame, byte by byte (R47, R53) -/

/-- A field of a field is a field of the word. -/
theorem extract_extract {w n m : Nat} (x : BitVec w) (start offset : Nat) (h : offset + m ≤ n) :
    (x.extractLsb' start n).extractLsb' offset m = x.extractLsb' (start + offset) m := by
  ext i hi
  have hfits : offset + i < n := by omega
  simp [hfits, Nat.add_assoc]

@[simp] theorem hi8_extract_hi (p : ParamWord) : hi8 (p.extractLsb' 16 16) = paramByte p 0 :=
  extract_extract p 16 8 (by decide)

@[simp] theorem lo8_extract_hi (p : ParamWord) : lo8 (p.extractLsb' 16 16) = paramByte p 1 :=
  extract_extract p 16 0 (by decide)

@[simp] theorem hi8_extract_lo (p : ParamWord) : hi8 (p.extractLsb' 0 16) = paramByte p 2 :=
  extract_extract p 0 8 (by decide)

@[simp] theorem lo8_extract_lo (p : ParamWord) : lo8 (p.extractLsb' 0 16) = paramByte p 3 :=
  extract_extract p 0 0 (by decide)

/-- The payload of a frame, read as a command byte and a parameter word. -/
theorem payloadRaw_extract (f : FrameWord) :
    payloadRaw (frameByte f 1) (f.extractLsb' 16 32) = framePayload f := by
  simp [payloadRaw, framePayload, paramByte, frameByte, extract_extract]

/-- A well-formed frame is the table row of its own command byte and parameters (R65). -/
theorem rowWord_of_frameOk {f : FrameWord} (h : frameOk f = true) :
    rowWord (frameByte f 1) (f.extractLsb' 16 32) = f := by
  obtain ⟨hlead, htrail, hsum⟩ := of_decide_eq_true h
  have hchecksum : checksum (framePayload f) = frameByte f 6 := by
    simp [checksum, Payload.bytes, framePayload, hsum, BitVec.xor_assoc]
  calc rowWord (frameByte f 1) (f.extractLsb' 16 32)
    _ = frameEncode (framePayload f) := by rw [rowWord_eq_frameEncode, payloadRaw_extract]
    _ = packFrame (frameByte f 0) (frameByte f 1) (frameByte f 2) (frameByte f 3) (frameByte f 4) (frameByte f 5)
          (frameByte f 6) (frameByte f 7) := by rw [frameEncode, hchecksum, hlead, htrail]; rfl
    _ = f := packFrame_frameByte f

/-! ## The named row a frame fits, and its own frame -/

/-- A row that asks for fixed bits gives its operation only where they are there. -/
theorem fixed_of_row {fixed : Prop} [Decidable fixed] {i j : Instr} (h : (if fixed then some j else none) = some i) :
    fixed ∧ j = i := by
  simpa using h

/-- A command byte and parameters that fit a named row are the payload of its operation: each bit of the row is fixed
or an operand's. -/
theorem payloadOf_of_namedRow {cmd : Byte} {p : ParamWord} {i : Instr} (h : namedRow cmd p = some i) :
    payloadOf i = payloadRaw cmd p := by
  unfold namedRow at h
  split at h
  case h_14 => cases h -- no row has this command byte
  all_goals
    rename_i hcmd
    obtain ⟨-, rfl⟩ := BitVec.toNat_eq_nat.1 hcmd
  case h_1 | h_2 | h_3 => -- uid and level
    obtain ⟨hp3, rfl⟩ := fixed_of_row h
    simp [payloadOf, payloadEnroll, payloadRaw, EnrollStage.code, hp3]
  case h_4 | h_7 | h_8 => -- uid alone
    obtain ⟨⟨hp2, hp3⟩, rfl⟩ := fixed_of_row h
    simp [payloadOf, payloadUid, payloadRaw, hp2, hp3]
  case h_5 | h_6 | h_9 | h_12 => -- no operand
    obtain ⟨rfl, rfl⟩ := fixed_of_row h
    rfl
  case h_10 => -- SET_BAUD_RATE
    obtain ⟨⟨hp0, hp1, hp3⟩, rfl⟩ := fixed_of_row h
    simp [payloadOf, payloadBaud, payloadRaw, hp0, hp1, hp3]
  case h_11 => -- SET_COMPARE_LEVEL, its persist flag a fixed bit
    obtain ⟨⟨hp0, hp2, hp3⟩, rfl⟩ := fixed_of_row h
    simp [payloadOf, payloadCompareLevel, payloadRaw, hp0, hp2, hp3]
  case h_13 => -- GET_NEXT_AVAILABLE_ID, no fixed bit
    cases h
    simp [payloadOf, payloadRange, payloadRaw]

/-- The instruction a command byte and parameters are read as: the named row they fit, else the raw exchange. -/
def readRow (cmd : Byte) (p : ParamWord) : Instr := (namedRow cmd p).getD (.rawExch cmd p)

theorem readRow_of_some {cmd : Byte} {p : ParamWord} {i : Instr} (h : namedRow cmd p = some i) : readRow cmd p = i := by
  rw [readRow, h, Option.getD_some]

theorem readRow_of_none {cmd : Byte} {p : ParamWord} (h : namedRow cmd p = none) : readRow cmd p = .rawExch cmd p := by
  rw [readRow, h, Option.getD_none]

theorem encode_of_namedRow {cmd : Byte} {p : ParamWord} {i : Instr} (h : namedRow cmd p = some i) :
    encode i = rowWord cmd p := by
  rw [encode_eq_frameEncode, payloadOf_of_namedRow h, rowWord_eq_frameEncode]

/-- Whatever a row is read as, its frame is that row. -/
theorem encode_readRow (cmd : Byte) (p : ParamWord) : encode (readRow cmd p) = rowWord cmd p := by
  cases h : namedRow cmd p with
  | none => rw [readRow_of_none h]; rfl
  | some i => rw [readRow_of_some h, encode_of_namedRow h]

/-! ## The frame decoder, clause by clause (R58) -/

theorem decodeFrame_badLead {f : FrameWord} (h : frameByte f 0 ≠ Config.marker) : decodeFrame f = .error .badLead :=
  if_pos h

theorem decodeFrame_badTrail {f : FrameWord} (hlead : frameByte f 0 = Config.marker)
    (htrail : frameByte f 7 ≠ Config.marker) : decodeFrame f = .error .badTrail :=
  (if_neg (not_not.2 hlead)).trans (if_pos htrail)

theorem decodeFrame_markers {f : FrameWord} (hlead : frameByte f 0 = Config.marker)
    (htrail : frameByte f 7 = Config.marker) :
    decodeFrame f = .ok (readRow (frameByte f 1) (f.extractLsb' 16 32)) := by
  refine (if_neg (not_not.2 hlead)).trans ((if_neg (not_not.2 htrail)).trans ?_)
  dsimp only
  split
  case h_1 i hnamed => rw [readRow_of_some (cmd := frameByte f 1) hnamed]
  case h_2 hraw => rw [readRow_of_none (cmd := frameByte f 1) hraw]; rfl

/-- A table row stands between two markers, so it decodes by its command byte and parameters. -/
@[simp] theorem decodeFrame_rowWord (cmd : Byte) (p : ParamWord) :
    decodeFrame (rowWord cmd p) = .ok (readRow cmd p) := by
  have hlead : frameByte (rowWord cmd p) 0 = Config.marker := by simp [rowWord_eq_frameEncode, frameEncode]
  have htrail : frameByte (rowWord cmd p) 7 = Config.marker := by simp [rowWord_eq_frameEncode, frameEncode]
  rw [decodeFrame_markers hlead htrail, rowWord_cmd, rowWord_params]

/-- A raw frame decodes to the named row it fits, else to the raw exchange of its bytes (log entry 2). -/
theorem decodeFrame_rowWord_cases (cmd : Byte) (p : ParamWord) :
    (namedRow cmd p = none → decodeFrame (rowWord cmd p) = .ok (.rawExch cmd p)) ∧
      ∀ j, namedRow cmd p = some j → decodeFrame (rowWord cmd p) = .ok j ∧ encode j = rowWord cmd p := by
  rw [decodeFrame_rowWord]
  exact ⟨fun hraw => by rw [readRow_of_none hraw],
    fun j hnamed => ⟨by rw [readRow_of_some hnamed], encode_of_namedRow hnamed⟩⟩

/-- A byte sequence of another length than a frame's is no frame. -/
theorem decodeBytes_badLength {bs : List Byte} (h : bs.length ≠ 8) : decodeBytes bs = .error .badLength := by
  unfold decodeBytes
  split
  case h_1 => exact absurd rfl h
  case h_2 => rfl

/-! ## The statements on frames -/

/-- Settles O6: a well-formed frame is a table row, and whatever a row is read as has that row as its frame. -/
theorem encodeOfDecode : Obligations.EncodeOfDecode := by
  intro f hok
  have hrow : rowWord (frameByte f 1) (f.extractLsb' 16 32) = f := rowWord_of_frameOk hok
  refine ⟨readRow (frameByte f 1) (f.extractLsb' 16 32), ?_, (encode_readRow _ _).trans hrow⟩
  rw [← decodeFrame_rowWord, hrow]

/-- Settles O5: a named operation's row has its fixed bits, so it is read as that operation with the operands in it; a
raw frame is read as its row is. -/
theorem decodeOfEncode : Obligations.DecodeOfEncode := by
  intro i
  cases i with
  | rawExch cmd params | rawSend cmd params => exact decodeFrame_rowWord_cases cmd params
  | enrollStart uid level | enrollIntermediate uid level | enrollEnd uid level =>
    obtain ⟨-, -, hlevel, hp3⟩ := paramByte_half_bytes uid level 0x00#8
    simp [encode, readRow, namedRow, hlevel, hp3]
  | removeOne uid | getUserLevel uid | compareOne uid =>
    obtain ⟨-, -, hp2, hp3⟩ := paramByte_halves uid 0x0000#16
    simp [encode, readRow, namedRow, hp2, hp3, hi8, lo8]
  | removeAll | getUserCount | authenticate | sleep => exact decodeFrame_rowWord _ _
  | setBaudRate new =>
    obtain ⟨hp0, hp1, hnew, hp3⟩ := paramByte_half_bytes 0x0000#16 new 0x00#8
    simp [encode, readRow, namedRow, hp0, hp1, hnew, hp3, hi8, lo8]
  | setCompareLevel lvl =>
    obtain ⟨hp0, hlvl, hp2, hp3⟩ := paramByte_append 0x00#8 lvl 0x01#8 0x00#8
    simp [encode, readRow, namedRow, hp0, hlvl, hp2, hp3]
  | getNextAvailableId lo hi => simp [encode, readRow, namedRow]

/-- Settles O4: the frame of each operation's row is the FrameCodec's frame of its payload. -/
theorem parameterLayout : Obligations.ParameterLayout :=
  have layout := encode_eq_frameEncode
  ⟨fun _ _ => ⟨layout _, layout _, layout _⟩, fun _ => ⟨layout _, layout _, layout _⟩, layout _, layout _, layout _,
    fun _ => ⟨layout _, layout _⟩, fun _ _ => layout _, layout _, fun _ _ => ⟨layout _, layout _⟩⟩

/-- Settles O7, by the four clauses of the decoder. -/
theorem decoderRejectsByName : Obligations.DecoderRejectsByName :=
  ⟨fun _ => decodeBytes_badLength, fun _ => decodeFrame_badLead, fun _ => decodeFrame_badTrail,
    fun _ hlead htrail => ⟨_, decodeFrame_markers hlead htrail⟩⟩

/-- Settles O9: six words, decoded. -/
theorem specWordsDecode : Obligations.SpecWordsDecode := by
  refine ⟨?_, ?_, ?_, ?_, ?_, ?_⟩ <;> decide

/-! ## The command port -/

/-- Settles O8: the fields of R50, tag by tag and, for ENROLL, stage by stage. -/
theorem opTagsNameTheOperations : Obligations.OpTagsNameTheOperations := by
  rintro ⟨op, a16, b16, s8, v8, rc8, rp32⟩
  refine ⟨?_, ?_, ?first, ?intermediate, ?last, ?_, ?_, ?_, ?_, ?_, ?_, ?_, ?_, ?_, ?_, ?reserved⟩
  case first | intermediate | last => rintro rfl rfl; rfl
  case reserved => rintro (rfl | rfl | rfl) <;> rfl
  all_goals rintro rfl; rfl

end Sys2Proof.Proofs
end

section
/-! PROOFS. The ports while a command cannot be taken: a command presented outside `IDLE`, and the result held in `DONE`
through every event but a take and a reset. -/

namespace Sys2Proof.Proofs

open Machine Claims Laws

theorem presentCommand_busy {s : State} (c : Command) (hbusy : s.fsm ≠ .idle) : presentCommand c s = .next s := by
  unfold presentCommand
  split
  case h_1 hidle => exact absurd hidle hbusy
  case h_2 => rfl

/-- Settles O30: outside `IDLE` presenting a command answers the state it finds. -/
theorem busyPortIgnoresCommands : Obligations.BusyPortIgnoresCommands := by
  intro s c rest hready hnext
  have hbusy : s.fsm ≠ .idle := by simpa [State.cmdReady] using hready
  rw [step_cons hnext, handle, presentCommand_busy (s := { s with script := rest }) c hbusy]

/-- What the host sees on the result port in `DONE` (R51). -/
theorem resultPort_done {s : State} (hdone : s.fsm = .done) : resultPort s = some s.res := by
  simp [resultPort, State.resValid, hdone]

/-- Settles O44: the port shows the held result, and reading it records that. -/
theorem resultReadWithoutTaking : Obligations.ResultReadWithoutTaking := by
  intro s rest hdone hnext
  rw [step_cons hnext, handle, resultPort_done (s := { s with script := rest }) hdone]

/-- The completion of a request that is not outstanding answers the state it finds (R78). -/
theorem eq_of_stray {s u t : State} {phase : Fsm} (hstray : s.fsm ≠ phase)
    (h : (if s.fsm = phase then deliver u else .next s) = .next t) : t = s := by
  rcases deliver_or_eq_of_ite h with ⟨hphase, _⟩ | ⟨_, rfl⟩
  · exact absurd hphase hstray
  · rfl

/-- In `DONE` every event but a take and a reset leaves the FSM state and the result registers alone (R108). -/
theorem handle_done_keeps_result {e : Event} {s t : State} (hdone : s.fsm = .done) (htake : e ≠ .take)
    (hreset : ∀ k j, e ≠ .reset k j) (h : handle e s = .next t) : t.fsm = s.fsm ∧ t.res = s.res := by
  have hidle : s.fsm ≠ .idle := by simp [hdone]
  have hwrite : s.fsm ≠ .write := by simp [hdone]
  have hread : s.fsm ≠ .read := by simp [hdone]
  cases e with
  | take => exact absurd rfl htake
  | reset k j => exact absurd rfl (hreset k j)
  | present c =>
    cases (presentCommand_busy c hidle).symm.trans h
    exact ⟨rfl, rfl⟩
  | elapse dt =>
    cases (passTime_waits fun hreads => absurd hreads hread).symm.trans h
    exact ⟨rfl, rfl⟩
  | writeOk n | writeErr k => cases eq_of_stray hwrite h; exact ⟨rfl, rfl⟩
  | readReturn | readErr j => cases eq_of_stray hread h; exact ⟨rfl, rfl⟩
  | sample =>
    rw [handle, resultPort_done hdone] at h
    cases h
    exact ⟨rfl, rfl⟩
  | deviceSends bytes | configure rate => cases h; exact ⟨rfl, rfl⟩
  | foreign => cases h

/-- Settles O40: the event leaves the FSM state and the result registers alone, so the port shows the same result. -/
theorem resultHeldUntilTaken : Obligations.ResultHeldUntilTaken := by
  intro s t e rest hdone hnext htake hreset h
  obtain ⟨hfsm, hres⟩ := handle_done_keeps_result (s := { s with script := rest }) hdone htake hreset
    ((step_cons hnext).symm.trans h)
  have hstays : t.fsm = .done := hfsm.trans hdone
  exact ⟨hstays, hres, by rw [resultPort_done hstays, hres]⟩

end Sys2Proof.Proofs
end

section
/-! PROOFS. The FrameCodec: the frame byte by byte, the checksum as an exclusive-or fold over a list, and the frames that
are encodings. Law 4 (one bit of one byte) and the first half of law 5 (the same bits of an even number of bytes) are one
fact about the fold, by the parity of the number of bytes changed. -/

namespace Sys2Proof.Proofs

open Machine Claims Laws

/-! ## The frame byte by byte (R62) -/

theorem checksum_eq (p : Payload) : checksum p = p.cmd ^^^ p.p0 ^^^ p.p1 ^^^ p.p2 ^^^ p.p3 := by
  simp [checksum, Payload.bytes, BitVec.xor_assoc]

theorem frameEncode_eq (p : Payload) : frameEncode p =
    packFrame 0xF5 p.cmd p.p0 p.p1 p.p2 p.p3 (p.cmd ^^^ p.p0 ^^^ p.p1 ^^^ p.p2 ^^^ p.p3) 0xF5 := by
  rw [frameEncode, checksum_eq]
  rfl

theorem frameBytes_frameEncode (p : Payload) :
    frameBytes (frameEncode p) = Config.marker :: (p.bytes ++ [checksum p]) ++ [Config.marker] :=
  frameBytes_packFrame ..

@[simp] theorem frameByte_frameEncode_0 (p : Payload) : frameByte (frameEncode p) 0 = Config.marker :=
  frameByte_packFrame_0 ..

@[simp] theorem frameByte_frameEncode_6 (p : Payload) : frameByte (frameEncode p) 6 = checksum p :=
  frameByte_packFrame_6 ..

@[simp] theorem frameByte_frameEncode_7 (p : Payload) : frameByte (frameEncode p) 7 = Config.marker :=
  frameByte_packFrame_7 ..

@[simp] theorem framePayload_frameEncode (p : Payload) : framePayload (frameEncode p) = p := by
  simp [framePayload, frameEncode]

/-! ## The exclusive-or fold of a list of bytes (R63) -/

theorem xorfold_append (as bs : List Byte) : xorfold (as ++ bs) = xorfold as ^^^ xorfold bs := by
  induction as with
  | nil => simp
  | cons a as ih => simp [ih, BitVec.xor_assoc]

theorem xorfold_bytes_checksum (p : Payload) : xorfold (p.bytes ++ [checksum p]) = 0x00 := by
  simp [xorfold_append, checksum]

/-- Bytes 1 to 6 of a frame, its payload and its checksum, fold to 0 (law 2). -/
theorem xorfold_frameEncode_payload_checksum (p : Payload) :
    xorfold ((framePayload (frameEncode p)).bytes ++ [frameByte (frameEncode p) 6]) = 0x00 := by
  rw [framePayload_frameEncode, frameByte_frameEncode_6, xorfold_bytes_checksum]

/-- The two markers cancel, so a whole frame folds to 0 (law 3). -/
theorem xorfold_frameBytes_frameEncode (p : Payload) : xorfold (frameBytes (frameEncode p)) = 0x00 := by
  rw [frameBytes_frameEncode, xorfold_append, xorfold_cons, xorfold_bytes_checksum]
  rfl

/-- Flipping the bits of `m` in some bytes of a list flips them in its fold when the number of those bytes is odd, and
leaves the fold alone when it is even. -/
theorem xorfold_flip (m : Byte) {bs : List Byte} {flip : List Bool} (hlength : flip.length = bs.length) :
    xorfold (List.zipWith (fun b z => if z then b ^^^ m else b) bs flip) =
      if flip.count true % 2 = 0 then xorfold bs else xorfold bs ^^^ m := by
  induction bs generalizing flip with
  | nil =>
    obtain rfl : flip = [] := List.length_eq_zero_iff.1 hlength
    rfl
  | cons b bs ih =>
    obtain ⟨z, zs, rfl⟩ := List.exists_cons_of_length_eq_add_one hlength
    have htail := ih (Nat.succ.inj hlength)
    have hmove (x : Byte) : b ^^^ m ^^^ x = b ^^^ x ^^^ m := by ac_rfl
    rcases Nat.mod_two_eq_zero_or_one (zs.count true) with heven | hodd
    · cases z with
      | false => simp [htail, heven]
      | true => simp [htail, heven, hmove, Nat.succ_mod_two_eq_zero_iff]
    · cases z with
      | false => simp [htail, hodd, BitVec.xor_assoc]
      | true => simp [htail, hodd, hmove, Nat.succ_mod_two_eq_zero_iff, BitVec.xor_assoc]

/-- The fold does not depend on the order of the bytes. -/
theorem xorfold_perm {as bs : List Byte} (h : as.Perm bs) : xorfold as = xorfold bs := by
  induction h with
  | nil => rfl
  | cons a _ ih => rw [xorfold_cons, xorfold_cons, ih]
  | swap a b cs =>
    simp only [xorfold_cons]
    ac_rfl
  | trans _ _ ih₁ ih₂ => exact ih₁.trans ih₂

/-! ## The frames that are encodings (R65) -/

theorem frameOk_iff (f : FrameWord) : frameOk f = true ↔ frameByte f 0 = 0xF5 ∧ frameByte f 7 = 0xF5 ∧
    frameByte f 6 = frameByte f 1 ^^^ frameByte f 2 ^^^ frameByte f 3 ^^^ frameByte f 4 ^^^ frameByte f 5 :=
  decide_eq_true_iff

theorem frameOk_frameEncode (p : Payload) : frameOk (frameEncode p) = true := by
  rw [frameOk_iff]
  refine ⟨frameByte_frameEncode_0 p, frameByte_frameEncode_7 p, ?_⟩
  calc frameByte (frameEncode p) 6
    _ = checksum (framePayload (frameEncode p)) := by simp
    _ = _ := checksum_eq _

/-- A well-formed frame is the encoding of its own payload bytes. -/
theorem frameEncode_framePayload {f : FrameWord} (h : frameOk f = true) : frameEncode (framePayload f) = f := by
  rw [← payloadRaw_extract, ← rowWord_eq_frameEncode, rowWord_of_frameOk h]

theorem frameEncode_injective : Function.Injective frameEncode :=
  Function.LeftInverse.injective framePayload_frameEncode

/-! ## The statements on the FrameCodec -/

/-- Settles O2: laws 1 to 3 from the frame's bytes, law 4 with one byte flipped, law 5 with an even number flipped and by
the fold's independence of the order. -/
theorem checksumLaws : Obligations.ChecksumLaws := by
  refine ⟨fun cmd p0 p1 p2 p3 => ?_, ?even, ?perm⟩
  case even => exact fun p m flip hlength heven => (xorfold_flip m hlength).trans (if_pos heven)
  case perm => exact fun p q h => xorfold_perm h
  refine ⟨frameByte_frameEncode_0 _, frameByte_frameEncode_7 _, frameBytes_length _,
    (frameByte_frameEncode_6 _).trans (checksum_eq _), xorfold_frameEncode_payload_checksum ⟨cmd, p0, p1, p2, p3⟩,
    xorfold_frameBytes_frameEncode _, fun i hi => ?_⟩
  have flipped (flip : List Bool) (hlength : flip.length = 5) :=
    xorfold_flip (1#8 <<< i) (bs := [cmd, p0, p1, p2, p3]) hlength
  simp only [frameByte_frameEncode_6]
  exact ⟨flipped [true, false, false, false, false] rfl, flipped [false, true, false, false, false] rfl,
    flipped [false, false, true, false, false] rfl, flipped [false, false, false, true, false] rfl,
    flipped [false, false, false, false, true] rfl⟩

/-- Settles O3: encoding and reading the payload bytes are inverse to each other on the well-formed frames. -/
theorem wellFormedFramesAreTheEncoded : Obligations.WellFormedFramesAreTheEncoded :=
  ⟨frameOk_iff, frameOk_frameEncode, fun _ hok => (frameEncode_framePayload hok).symm,
    fun _ _ heq => frameEncode_injective heq⟩

/-- Settles O1: the frame byte by byte; the pair `x`, `x` cancels in the checksum. -/
theorem encodeBuildsTheFrame : Obligations.EncodeBuildsTheFrame := by
  refine ⟨fun cmd p0 p1 p2 p3 => ⟨?_, frameEncode_eq _⟩, ?zeros, ?markers, fun c x => ?cancel, ?enroll⟩
  case zeros | markers | enroll => decide
  case cancel => simp [checksum_eq]
  rw [frameEncode_eq, frameBytes_packFrame]

end Sys2Proof.Proofs
end

section
/-! PROOFS. The shape of an operation, written once for every instruction from the equations of one transition (its
acceptance, its write, its reply and the failures of its read), and from it the two raw operations. -/

namespace Sys2Proof.Proofs

open Machine Claims Laws

/-! ## Acceptance, and the write of an operation that awaits a reply -/

/-- A well-formed instruction is accepted with the frame of its payload (R66 T1, R67). -/
theorem acceptsWith_payload {i : Instr} (hwf : i.wellFormed = true) : acceptsWith i i.tag.code 0xF5 (payloadOf i).cmd
    (payloadOf i).p0 (payloadOf i).p1 (payloadOf i).p2 (payloadOf i).p3 (checksum (payloadOf i)) 0xF5 := by
  intro s hidle
  rw [exec_idle i hidle, (argError_eq_none_iff i).2 hwf]
  rfl

/-- The raw payload of four parameter bytes is those bytes (R53). -/
theorem payloadRaw_append (cmd p0 p1 p2 p3 : Byte) :
    payloadRaw cmd (p0 ++ p1 ++ p2 ++ p3) = ⟨cmd, p0, p1, p2, p3⟩ := by
  obtain ⟨h0, h1, h2, h3⟩ := paramByte_append p0 p1 p2 p3
  rw [payloadRaw, h0, h1, h2, h3]

/-- A raw operation is accepted with its command byte and its four parameter bytes (R79, R80). -/
theorem acceptsWith_raw {i : Instr} {cmd p0 p1 p2 p3 : Byte} (hwf : i.wellFormed = true)
    (hpayload : payloadOf i = payloadRaw cmd (p0 ++ p1 ++ p2 ++ p3)) :
    acceptsWith i i.tag.code 0xF5 cmd p0 p1 p2 p3 (cmd ^^^ p0 ^^^ p1 ^^^ p2 ^^^ p3) 0xF5 := by
  have haccepts := acceptsWith_payload hwf
  rwa [hpayload, payloadRaw_append, checksum_eq] at haccepts

theorem writeDoneOf_exchange {op : OpTag} (h : op.expectsReply = true) : writeDoneOf op = writeDoneExchange := by
  cases op with
  | rawSend | sleep => cases h
  | _ => rfl

theorem writeDoneExchange_short {n : Fin 9} (hshort : n.val < 8) (s : State) :
    writeDoneExchange (.ok n) s = raiseTransportError .writeShort s :=
  if_neg hshort.ne

theorem writeDoneRawSend_short {n : Fin 9} (hshort : n.val < 8) (s : State) :
    writeDoneRawSend (.ok n) s = raiseTransportError .writeShort s :=
  if_neg hshort.ne

section
variable {i : Instr} (hreply : i.tag.expectsReply = true)
include hreply

theorem readsAfterWrite_of_expectsReply : readsAfterWrite i := by
  intro s hwrite
  have hdone {w : WriteResult} (hport : s.port = .wrote w) :
      exec i s = .next (writeDoneExchange w (clearPort s)) := by
    rw [exec_write i hwrite hport, writeDoneOf_exchange hreply]
  refine ⟨fun hport => hdone hport, fun n hshort hport => ?_, fun hport => hdone hport⟩
  rw [hdone hport, writeDoneExchange_short hshort]
  rfl

/-! ## The reply, and the failures of the read -/

theorem decodesReply_of_expectsReply :
    decodesReply i (fun r0 r1 r2 r3 r4 => decoderOf i.tag (packReply r0 r1 r2 r3 r4)) := by
  intro s r0 r1 r2 r3 r4 hread hport
  exact exec_read hreply hread hport

theorem failsRead_of_expectsReply : failsRead i := by
  intro s hread
  refine ⟨fun hport => exec_read hreply hread hport, fun bs hpos hlength hport => ?_,
    fun hport => exec_read hreply hread hport⟩
  have hcause : shortCause bs = .readShort := if_neg (List.length_pos_iff.1 hpos)
  rw [exec_read hreply hread hport, readDone_short _ (Nat.lt_succ_of_le hlength), hcause]
  rfl

end

/-! ## The raw operations -/

/-- Settles O20: the shape of an operation that awaits a reply, its decoder the raw one. -/
theorem rawExchangeOperation : Obligations.RawExchangeOperation := by
  intro c p0 p1 p2 p3 i
  have hreply : i.tag.expectsReply = true := rfl
  exact ⟨acceptsWith_raw rfl rfl, readsAfterWrite_of_expectsReply hreply, decodesReply_of_expectsReply hreply,
    failsRead_of_expectsReply hreply⟩

/-- Settles O21: the completion of its write ends a RAW_SEND, whatever it answers. -/
theorem rawSendOperation : Obligations.RawSendOperation := by
  intro c p0 p1 p2 p3 i
  refine ⟨acceptsWith_raw rfl rfl, fun s hwrite => ⟨fun hport => exec_write i hwrite hport, fun n hshort hport => ?_,
    fun hport => exec_write i hwrite hport⟩⟩
  calc exec i s
    _ = .next (writeDoneRawSend (.ok n) (clearPort s)) := exec_write i hwrite hport
    _ = _ := by rw [writeDoneRawSend_short hshort]; rfl

end Sys2Proof.Proofs
end

section
/-! PROOFS. A command presented in `IDLE`: the check on its fields is the check of the instruction they name, and the step
accepts or refuses by it. -/

namespace Sys2Proof.Proofs

open Machine Claims Laws

/-! ## The fields of the port, read (R49, R50) -/

/-- The three reserved tags name no operation. -/
theorem opTagOfCode_eq_none_iff (op : BitVec 4) : opTagOfCode op = none ↔ op = 0xD ∨ op = 0xE ∨ op = 0xF := by
  revert op
  decide

/-- A tag names an operation only by that operation's own code. -/
theorem eq_code_of_opTagOfCode {op : BitVec 4} {tag : OpTag} (h : opTagOfCode op = some tag) : op = tag.code := by
  have hcodes : ∀ op : BitVec 4, ∀ tag ∈ opTagOfCode op, op = tag.code := by decide
  exact hcodes op tag h

theorem stageOfByte_eq_none_iff (b : Byte) : stageOfByte b = none ↔ ¬ (b = 1#8 ∨ b = 2#8 ∨ b = 3#8) := by
  revert b
  decide

theorem sendableLevel_iff (v : Byte) : sendableLevel v = true ↔ v = 1#8 ∨ v = 2#8 ∨ v = 3#8 := by
  simp [sendableLevel, or_assoc]

theorem sendableBaud_iff (v : Byte) :
    sendableBaud v = true ↔ v = 1#8 ∨ v = 2#8 ∨ v = 3#8 ∨ v = 4#8 ∨ v = 5#8 := by
  simp [sendableBaud, or_assoc]

@[simp] theorem argError_enrollInstr (stage : EnrollStage) (uid : Word16) (level : Byte) :
    argError (enrollInstr stage uid level) = checkLevel level := by
  cases stage <;> rfl

/-! ## The check of the fields, by the instruction they name -/

/-- Why a presented command is refused: its fields name no instruction, or the instruction fails its own check. -/
def commandError (c : Command) : Option RefuseCode :=
  match decodeCommand c with
  | .error r => some r
  | .ok i => argError i

/-- The lines of R68: 1 and 2 ask that the fields name an instruction, 3 to 5 are its own check. -/
theorem argCheck_eq_commandError (c : Command) : argCheck c = commandError c := by
  obtain ⟨op, a16, b16, s8, v8, rc8, rp32⟩ := c
  cases htag : opTagOfCode op with
  | none =>
    have hreserved := (opTagOfCode_eq_none_iff op).1 htag
    have hnone : commandError ⟨op, a16, b16, s8, v8, rc8, rp32⟩ = some .reservedOp := by
      simp [commandError, decodeCommand, htag]
    exact (if_pos hreserved).trans hnone.symm
  | some tag =>
    obtain rfl := eq_code_of_opTagOfCode htag
    cases tag with
    | enroll =>
      cases hstage : stageOfByte s8 with
      | none =>
        have hbad := (stageOfByte_eq_none_iff s8).1 hstage
        simp only [commandError, decodeCommand, htag, hstage]
        simp [argCheck, hbad, OpTag.code]
      | some stage =>
        have hgood : s8 = 1#8 ∨ s8 = 2#8 ∨ s8 = 3#8 := by
          by_contra hbad
          simp [(stageOfByte_eq_none_iff s8).2 hbad] at hstage
        simp only [commandError, decodeCommand, htag, hstage, argError_enrollInstr]
        simp [argCheck, hgood, OpTag.code, checkLevel, sendableLevel_iff, -not_or]
    | setCompareLevel =>
      change _ = checkCompareLevel v8
      rcases Nat.lt_or_ge 9 v8.toNat with hover | hin
      · simp [argCheck, OpTag.code, checkCompareLevel, compareLevelInRange, hover]
      · simp [argCheck, OpTag.code, checkCompareLevel, compareLevelInRange, hin]
    | setBaudRate =>
      change _ = checkBaud v8
      simp [argCheck, OpTag.code, checkBaud, sendableBaud_iff, -not_or]
    | _ => rfl

theorem commandError_of_error {c : Command} {r : RefuseCode} (h : decodeCommand c = .error r) :
    commandError c = some r := by
  simp [commandError, h]

theorem commandError_of_ok {c : Command} {i : Instr} (h : decodeCommand c = .ok i) : commandError c = argError i := by
  simp [commandError, h]

/-- Settles O28: both say that the fields name an instruction and that its own check passes. -/
theorem argCheckIsWellFormedness : Obligations.ArgCheckIsWellFormedness := by
  intro c
  rw [argCheck_eq_commandError]
  cases hdecode : decodeCommand c with
  | error r => simp [commandError_of_error hdecode]
  | ok i => simp [commandError_of_ok hdecode, argError_eq_none_iff]

/-- The fields that name an instruction carry its op tag (R49). -/
theorem op_of_decodeCommand {c : Command} {i : Instr} (h : decodeCommand c = .ok i) : c.op = i.tag.code := by
  apply eq_code_of_opTagOfCode
  unfold decodeCommand at h
  cases htag : opTagOfCode c.op with
  | none => simp [htag] at h
  | some tag =>
    cases tag with
    | enroll =>
      cases hstage : stageOfByte c.s8 with
      | none => simp [htag, hstage] at h
      | some stage =>
        simp only [htag, hstage, Except.ok.injEq] at h
        rw [← h, enrollInstr_tag]
    | _ =>
      simp only [htag, Except.ok.injEq] at h
      rw [← h]
      rfl

/-! ## The command presented in `IDLE` (R67, R68) -/

section
variable {s : State} {c : Command} (hidle : s.fsm = .idle)
include hidle

theorem presentCommand_refused {r : RefuseCode} (hcheck : argCheck c = some r) :
    presentCommand c s = .next (refuse c.op r s) := by
  rw [argCheck_eq_commandError] at hcheck
  cases hdecode : decodeCommand c with
  | error r' =>
    obtain rfl : r' = r := by simpa [commandError_of_error hdecode] using hcheck
    simp [presentCommand, hidle, hdecode]
  | ok i =>
    rw [commandError_of_ok hdecode] at hcheck
    rw [presentCommand_idle hidle hdecode, exec_idle i hidle, hcheck, acceptChecked, op_of_decodeCommand hdecode]

theorem presentCommand_accepted (hcheck : argCheck c = none) :
    ∃ i, decodeCommand c = .ok i ∧ presentCommand c s = .next (accept i.tag (payloadOf i) s) := by
  obtain ⟨i, hdecode, hwf⟩ := (argCheckIsWellFormedness c).1 hcheck
  refine ⟨i, hdecode, ?_⟩
  rw [presentCommand_idle hidle hdecode, exec_idle i hidle, (argError_eq_none_iff i).2 hwf, acceptChecked]

end

/-- Settles O27: the chain of lines is `argCheck`, and the step refuses or accepts by it. -/
theorem argumentCheck : Obligations.ArgumentCheck := by
  intro s c rest hidle hnext refused
  have hstep : step s = presentCommand c { s with script := rest } := step_cons hnext
  have hrefused {r : RefuseCode} (hcheck : argCheck c = some r) : refused r.code :=
    hstep.trans (presentCommand_refused (s := { s with script := rest }) hidle hcheck)
  simp only [List.mem_cons, List.not_mem_nil, or_false, BitVec.ofNat_eq_ofNat]
  split_ifs with hreserved hstage hlevel hcompare hbaud
  · exact hrefused (if_pos hreserved)
  · exact hrefused (r := .badStage) (by rw [argCheck, if_neg hreserved, if_pos hstage])
  · exact hrefused (r := .badLevel) (by rw [argCheck, if_neg hreserved, if_neg hstage, if_pos hlevel])
  · exact hrefused (r := .badCompareLevel)
      (by rw [argCheck, if_neg hreserved, if_neg hstage, if_neg hlevel, if_pos hcompare])
  · exact hrefused (r := .badBaud)
      (by rw [argCheck, if_neg hreserved, if_neg hstage, if_neg hlevel, if_neg hcompare, if_pos hbaud])
  · have hcheck : argCheck c = none := by
      rw [argCheck, if_neg hreserved, if_neg hstage, if_neg hlevel, if_neg hcompare, if_neg hbaud]
    obtain ⟨i, hdecode, haccepted⟩ := presentCommand_accepted (s := { s with script := rest }) hidle hcheck
    refine ⟨i, hdecode, hstep.trans (haccepted.trans ?_)⟩
    rw [accept, encode_eq_frameEncode, op_of_decodeCommand hdecode]

end Sys2Proof.Proofs
end

section
/-! PROOFS. The steps of the Dispatcher: the instruction each of them runs, the events and transitions without effect, and a
whole send as two steps. -/

namespace Sys2Proof.Proofs

open Machine Claims Laws

/-! ## The instruction a step runs -/

/-- A presented command runs as the instruction its fields name (R66, R67). -/
theorem step_present {s : State} {c : Command} {i : Instr} {rest : List Event} (hidle : s.fsm = .idle)
    (hnext : comesNext s (.present c) rest) (hdecode : decodeCommand c = .ok i) :
    step s = exec i { s with script := rest } :=
  (step_cons hnext).trans (presentCommand_idle (s := { s with script := rest }) hidle hdecode)

theorem withFetchWord_of_decode {nbits w : Nat} {i : Instr} (h : decodeTableWord nbits w = some i) (s : State) :
    s.withFetchWord nbits w = placeInstr i s := by
  simp [State.withFetchWord, h]

/-- Settles O25: a placed word is a presented command. -/
theorem stepRunsThePresentedInstruction : Obligations.StepRunsThePresentedInstruction := by
  refine ⟨fun s c rest i hidle hnext hdecode => step_present hidle hnext hdecode, fun s nbits w i hword => ?_⟩
  rw [withFetchWord_of_decode hword]
  exact step_present rfl rfl (decodeCommand_encodeCommand i)

/-- With five bytes there a read returns at once (R34). -/
theorem finishRead_full {s : State} (hfull : 5 ≤ s.rx.length) :
    finishRead s = { s with rx := s.rx.drop 5, port := .got (.ok (s.rx.take 5)) } := by
  simp [finishRead, dropReceived, returnTime, not_lt.2 hfull]

/-- With fewer it returns at its deadline with all of them (R34, R35). -/
theorem finishRead_short {s : State} (hshort : s.rx.length < 5) :
    finishRead s = { s with rx := [], now := max s.now s.readDeadline, port := .got (.ok s.rx) } := by
  simp [finishRead, dropReceived, returnTime, hshort, hshort.le]

/-- Settles O26: the step delivers what the Transport made of the state, and that delivery is a transition of the
instruction in flight. -/
theorem stepDeliversTheCompletion : Obligations.StepDeliversTheCompletion := by
  intro s i rest hi
  have hdeliver {u : State} (hop : u.opQ = s.opQ) (hframe : u.frame = s.frame) : deliver u = exec i u :=
    deliver_eq_exec ((inFlight_congr hop hframe).trans hi)
  refine ⟨fun n hwrite hnext => ?_, fun k hwrite hnext => ?_, fun hread hnext hfull => ?full,
    fun hread hnext hshort => ?short, fun j hread hnext => ?_⟩
  · exact (step_writeOk hwrite hnext).trans (hdeliver rfl rfl)
  · exact (step_writeErr hwrite hnext).trans (hdeliver rfl rfl)
  case full =>
    rw [step_readReturn hread hnext, finishRead_full (s := { s with script := rest }) hfull]
    exact hdeliver rfl rfl
  case short =>
    rw [step_readReturn hread hnext, finishRead_short (s := { s with script := rest }) hshort]
    exact hdeliver rfl rfl
  · exact (step_readErr hread hnext).trans (hdeliver rfl rfl)

/-! ## Waiting, and what has no effect -/

/-- Settles O32: the other transitions of an operation's shape want `IDLE` or a completion. -/
theorem instructionWaits : Obligations.InstructionWaits := by
  intro i s hwaits
  obtain ⟨t, hexec⟩ := exec_next i s
  suffices t = s by rw [hexec, this]
  cases hreply : i.tag.expectsReply with
  | true =>
    rw [exec_eq_exchange i hreply] at hexec
    rcases exchange_cases hexec with ⟨hidle, _⟩ | ⟨w, hwrite, hport, _⟩ | ⟨r, hread, hport, _⟩ | ⟨_, hsame⟩
    · simp [hidle] at hwaits
    · simp [hwrite, hport] at hwaits
    · simp [hread, hport, hreply] at hwaits
    · exact hsame
  | false =>
    obtain ⟨fin, hsend⟩ : ∃ fin, exec i s = sendOnly i.tag (payloadOf i) fin s :=
      (exec_eq_sendOnly i hreply s).elim (⟨_, ·⟩) (⟨_, ·⟩)
    rcases sendOnly_cases (hsend ▸ hexec) with ⟨hidle, _⟩ | ⟨w, hwrite, hport, _⟩ | ⟨_, hsame⟩
    · simp [hidle] at hwaits
    · simp [hwrite, hport] at hwaits
    · exact hsame

theorem resValid_iff (s : State) : s.resValid = true ↔ s.fsm = .done := by
  simp [State.resValid]

/-- Settles O39: the event is the Host's take, with a result held. -/
theorem takeReturnsToIdle : Obligations.TakeReturnsToIdle := by
  intro s rest hdone hnext
  rw [step_cons hnext]
  exact if_pos ((resValid_iff s).2 hdone)

/-- Settles O42: each of the five events is handled in one phase only. -/
theorem strayEventsIgnored : Obligations.StrayEventsIgnored := by
  intro s e rest hnext hstray
  rw [step_cons hnext]
  rcases hstray with ⟨⟨n, rfl⟩, hphase⟩ | ⟨⟨k, rfl⟩, hphase⟩ | ⟨rfl, hphase⟩ | ⟨⟨j, rfl⟩, hphase⟩ | ⟨rfl, hvalid⟩
  · exact if_neg hphase
  · exact if_neg hphase
  · exact if_neg hphase
  · exact if_neg hphase
  · exact if_neg (Bool.eq_false_iff.1 hvalid)

/-! ## A whole send -/

theorem wellFormed_of_sendOnly {i : Instr} (h : i.tag.expectsReply = false) : i.wellFormed = true := by
  cases i with
  | sleep | rawSend cmd params => rfl
  | _ => cases h

theorem writeDoneOf_fullSend {op : OpTag} (h : op.expectsReply = false) (s : State) :
    writeDoneOf op (.ok 8) s = emit resultSent s := by
  cases op with
  | rawSend | sleep => rfl
  | _ => cases h

/-- A full write of a send-only operation puts the whole frame out and reports the send (R71, R72). -/
theorem step_fullSend {s : State} {i : Instr} {rest : List Event} (hi : inFlight s = some i)
    (hreply : i.tag.expectsReply = false) (hwrite : s.fsm = .write) (hnext : comesNext s (.writeOk 8) rest) :
    step s = .next (emit resultSent { s with tx := s.tx ++ frameBytes s.frame, port := .quiet, script := rest }) := by
  rw [step_writeOk hwrite hnext, deliver_eq_exec (s := finishWriteOk 8 { s with script := rest }) hi,
    exec_write i (s := finishWriteOk 8 { s with script := rest }) hwrite rfl, writeDoneOf_fullSend hreply]
  rfl

/-- Settles O51: the two steps one after the other. -/
theorem wholeSend : Obligations.WholeSend := by
  intro s i rest hreply hidle hscript
  have haccepted := step_present_wellFormed (wellFormed_of_sendOnly hreply) hidle hscript
  have hsent := step_fullSend (inFlight_accept i { s with script := .writeOk 8 :: rest }) hreply rfl rfl
  calc Host.Core.run core 2 s
    _ = Host.Core.run core 1 _ := run_succ (M := core) 1 haccepted
    _ = Host.Core.run core 0 _ := run_succ (M := core) 0 hsent
    _ = .next _ := by rw [encode_eq_frameEncode i]; rfl

end Sys2Proof.Proofs
end

section
/-! PROOFS. The FSM state after an event. One lemma carries both statements: the event leads to the state R66's table
gives, or a completion finds no operation that awaits it in `op_q`, and the FSM stays. -/

namespace Sys2Proof.Proofs

open Machine Claims Laws

/-! ## A completion, by the state it leads to -/

/-- `op_q` holds no operation that awaits the completion of the request outstanding; no run has such a state. -/
def unawaited (s : State) : Prop :=
  (s.fsm = .write ∧ opTagOfCode s.opQ = none) ∨ (s.fsm = .read ∧ expectsReply s.opQ = false)

theorem writeDoneExchange_fsm (w : WriteResult) (s : State) :
    (writeDoneExchange w s).fsm = if w = .ok 8 then .read else .done := by
  rcases writeDoneExchange_cases w s with ⟨rfl, e⟩ | ⟨n, rfl, hshort, e⟩ | ⟨rfl, e⟩
  · simp [e]
  · have hn : n ≠ 8 := fun hn => absurd hshort (by simp [hn])
    simp [e, hn]
  · simp [e]

theorem writeDoneRawSend_fsm (w : WriteResult) (s : State) : (writeDoneRawSend w s).fsm = .done := by
  rcases writeDoneRawSend_cases w s with ⟨_, e⟩ | ⟨_, _, _, e⟩ | ⟨_, e⟩ <;> rw [e] <;> rfl

theorem writeDoneOf_fsm (op : OpTag) (w : WriteResult) (s : State) :
    (writeDoneOf op w s).fsm = if op.expectsReply = true ∧ w = .ok 8 then .read else .done := by
  cases op with
  | sleep => rfl
  | rawSend => exact writeDoneRawSend_fsm w s
  | _ => simp [writeDoneOf, OpTag.expectsReply, writeDoneExchange_fsm]

theorem expectsReply_of_tag {op : BitVec 4} {tag : OpTag} (h : opTagOfCode op = some tag) :
    expectsReply op = tag.expectsReply := by
  simp [expectsReply, h]

/-- A completed write leads to `READ` when it is full and a reply is awaited, else to `DONE` (R66 T3 to T6). -/
theorem deliver_write_fsm {s t : State} {w : WriteResult} (hwrite : s.fsm = .write) (hport : s.port = .wrote w)
    (h : deliver s = .next t) :
    t.fsm = (if expectsReply s.opQ = true ∧ w = .ok 8 then .read else .done) ∨ (unawaited s ∧ t.fsm = .write) := by
  cases htag : opTagOfCode s.opQ with
  | none =>
    rcases deliver_cases h with ⟨i, hi, _⟩ | ⟨_, rfl⟩
    · simp [opTagOfCode_of_inFlight hi] at htag
    · exact .inr ⟨.inl ⟨hwrite, htag⟩, hwrite⟩
  | some tag =>
    obtain ⟨i, hi, rfl⟩ := exists_inFlight htag
    obtain rfl : writeDoneOf i.tag w (clearPort s) = t := by
      simpa [deliver_eq_exec hi, exec_write i hwrite hport] using h
    exact .inl (by rw [writeDoneOf_fsm, expectsReply_of_tag htag])

/-- A completed read leads to `DONE` (R66 T7, T8). -/
theorem deliver_read_fsm {s t : State} {r : ReadResult} (hread : s.fsm = .read) (hport : s.port = .got r)
    (h : deliver s = .next t) : t.fsm = .done ∨ (unawaited s ∧ t.fsm = .read) := by
  cases hexpects : expectsReply s.opQ with
  | true =>
    obtain ⟨op, htag, hreply⟩ := (expectsReply_iff s.opQ).1 hexpects
    rw [deliver_read hread htag hreply hport] at h
    cases h
    left
    rcases readDone_full_or_error (decoderOf op) r (clearPort s) with ⟨_, e⟩ | ⟨_, _, e⟩ <;> rw [e] <;> rfl
  | false =>
    refine .inr ⟨.inr ⟨hread, hexpects⟩, ?_⟩
    rcases deliver_cases h with ⟨i, hi, hexec⟩ | ⟨_, rfl⟩
    · have hsend : i.tag.expectsReply = false := by
        rw [← hexpects, expectsReply_of_tag (opTagOfCode_of_inFlight hi)]
      rw [instructionWaits i s (.inr (.inr ⟨hread, .inl hsend⟩))] at hexec
      cases hexec
      exact hread
    · exact hread

/-! ## An event, by the state it leads to -/

/-- The states in which R66, and for the passing of time R35, give an event an effect on the FSM. -/
def listedIn (e : Event) (f : Fsm) : Prop :=
  match e with
  | .present _ => f = .idle
  | .writeOk _ | .writeErr _ => f = .write
  | .readReturn | .readErr _ | .elapse _ => f = .read
  | .take => f = .done
  | .reset _ _ => True
  | .sample | .deviceSends _ | .configure _ | .foreign => False

theorem nextFsm_unlisted {e : Event} {s : State} (h : ¬ listedIn e s.fsm) : nextFsm s e = s.fsm := by
  unfold nextFsm
  split
  case h_8 => exact absurd trivial h
  case h_9 => rfl
  all_goals exact absurd ‹_› h

theorem handle_unlisted {e : Event} {s t : State} (hout : ¬ listedIn e s.fsm) (h : handle e s = .next t) :
    t.fsm = s.fsm := by
  cases e with
  | present c => cases (presentCommand_busy c hout).symm.trans h; rfl
  | take =>
    cases (if_neg fun hvalid => hout ((resValid_iff s).1 hvalid)).symm.trans h
    rfl
  | sample =>
    simp only [handle] at h
    split at h <;> cases h
    rfl
  | writeOk n | writeErr k | readReturn | readErr j => rw [eq_of_stray hout h]
  | elapse dt => cases (passTime_waits fun hread => absurd hread hout).symm.trans h; rfl
  | deviceSends bytes | configure rate => cases h; rfl
  | reset k j => exact absurd trivial hout
  | foreign => cases h

/-- In `IDLE` the check decides whether `WRITE` or `DONE` comes next (R66 T1, T2). -/
theorem presentCommand_idle_fsm {c : Command} {s t : State} (hidle : s.fsm = .idle)
    (h : presentCommand c s = .next t) : t.fsm = if argCheck c = none then .write else .done := by
  cases hcheck : argCheck c with
  | none =>
    obtain ⟨i, _, haccepted⟩ := presentCommand_accepted hidle hcheck
    cases haccepted.symm.trans h
    rfl
  | some r =>
    cases (presentCommand_refused hidle hcheck).symm.trans h
    rfl

/-- Time leaves `READ` only as the completion of the read (R35). -/
theorem passTime_read_fsm {dt : Nat} {s t : State} (hread : s.fsm = .read) (h : passTime dt s = .next t) :
    t.fsm = (if elapseCompletes s dt then .done else .read) ∨ (unawaited s ∧ t.fsm = .read) := by
  rcases passTime_cases h with ⟨⟨_, hfull⟩, hdel⟩ | ⟨⟨_, hlate⟩, hdel⟩ | ⟨hfull, hlate, rfl⟩
  · rw [if_pos (.inl hfull)]
    exact deliver_read_fsm (s := finishRead { s with script := _ :: s.script }) hread rfl hdel
  · rw [if_pos (.inr hlate)]
    exact deliver_read_fsm (s := finishRead { s with script := _ :: s.script }) hread rfl hdel
  · rw [if_neg fun hcompletes => hcompletes.elim (fun h => hfull ⟨hread, h⟩) (fun h => hlate ⟨hread, h⟩)]
    exact .inl hread

/-- An event leads to the state of the table, unless it is a completion that the operation in `op_q` does not await. -/
theorem handle_fsm {e : Event} {s t : State} (h : handle e s = .next t) :
    t.fsm = nextFsm s e ∨ (unawaited s ∧ t.fsm = s.fsm) := by
  by_cases hin : listedIn e s.fsm
  case neg => exact .inl ((handle_unlisted hin h).trans (nextFsm_unlisted hin).symm)
  case pos =>
    cases e with
    | present c =>
      have hidle : s.fsm = .idle := hin
      simp only [nextFsm, hidle]
      exact .inl (presentCommand_idle_fsm hidle h)
    | take =>
      have hdone : s.fsm = .done := hin
      cases (if_pos ((resValid_iff s).2 hdone)).symm.trans h
      simp only [nextFsm, hdone]
      exact .inl rfl
    | writeOk n =>
      have hwrite : s.fsm = .write := hin
      have hfull : WriteResult.ok n = .ok 8 ↔ n.val = 8 := by simp [Fin.ext_iff]
      have hdel := deliver_write_fsm (s := finishWriteOk n s) hwrite rfl ((if_pos hwrite).symm.trans h)
      simp only [hfull] at hdel
      simp only [nextFsm, hwrite]
      exact hdel
    | writeErr k =>
      have hwrite : s.fsm = .write := hin
      have hdel := deliver_write_fsm (s := finishWriteErr k s) hwrite rfl ((if_pos hwrite).symm.trans h)
      rw [if_neg nofun] at hdel
      simp only [nextFsm, hwrite]
      exact hdel
    | readReturn =>
      have hread : s.fsm = .read := hin
      simp only [nextFsm, hread]
      exact deliver_read_fsm (s := finishRead s) hread rfl ((if_pos hread).symm.trans h)
    | readErr j =>
      have hread : s.fsm = .read := hin
      simp only [nextFsm, hread]
      exact deliver_read_fsm (s := finishReadErr j s) hread rfl ((if_pos hread).symm.trans h)
    | elapse dt =>
      have hread : s.fsm = .read := hin
      simp only [nextFsm, hread]
      exact passTime_read_fsm hread h
    | reset k j =>
      cases h
      left
      unfold nextFsm
      cases s.fsm <;> rfl
    | sample | deviceSends bytes | configure rate | foreign => exact absurd hin id

/-! ## The statements -/

/-- Settles O37: the statement's two premises on `op_q` say that it awaits the completion. -/
theorem transitionTable : Obligations.TransitionTable := by
  intro s t e rest hnext htag hreply h
  rcases handle_fsm (s := { s with script := rest }) ((step_cons hnext).symm.trans h) with htable | ⟨hunawaited, _⟩
  · exact htable
  · rcases hunawaited with ⟨hwrite, hnone⟩ | ⟨hread, hsend⟩
    · exact absurd hnone (htag (.inl hwrite))
    · exact absurd (hreply hread) (by simp [hsend])

/-- A step that changes the FSM state goes where the table has its event lead. -/
theorem step_fsm_changes {s t : State} (h : step s = .next t) (hleaves : t.fsm ≠ s.fsm) :
    ∃ e rest, comesNext s e rest ∧ t.fsm = nextFsm s e := by
  rcases step_cases h with ⟨_, rfl⟩ | ⟨e, rest, hnext, hhandle⟩
  · exact absurd rfl hleaves
  · rcases handle_fsm hhandle with htable | ⟨_, hkept⟩
    · exact ⟨e, rest, hnext, htable⟩
    · exact absurd hkept hleaves

/-- The table leaves `WRITE` only by a completed write or reset (R82). -/
theorem nextFsm_leaves_write {s : State} {e : Event} (hwrite : s.fsm = .write) (hleaves : nextFsm s e ≠ .write) :
    (e = .writeOk 8 ∧ nextFsm s e = .read) ∨
      (((∃ n, e = .writeOk n) ∨ ∃ k, e = .writeErr k) ∧ nextFsm s e = .done) ∨
      ((∃ k j, e = .reset k j) ∧ nextFsm s e = .idle) := by
  cases e with
  | writeOk n =>
    by_cases hreads : expectsReply s.opQ = true ∧ n.val = 8
    · obtain ⟨hreply, hn⟩ := hreads
      obtain rfl : n = 8 := Fin.ext hn
      simp [nextFsm, hwrite, hreply]
    · simp [nextFsm, hwrite, hreads]
  | writeErr k | reset k j => simp [nextFsm, hwrite]
  | _ => exact absurd (by simp [nextFsm, hwrite]) hleaves

/-- The table leaves `READ` only by a completed read, time that completes it, or reset (R82, R35). -/
theorem nextFsm_leaves_read {s : State} {e : Event} (hread : s.fsm = .read) (hleaves : nextFsm s e ≠ .read) :
    (e = .readReturn ∧ nextFsm s e = .done) ∨ ((∃ j, e = .readErr j) ∧ nextFsm s e = .done) ∨
      ((∃ dt, e = .elapse dt ∧ elapseCompletes s dt) ∧ nextFsm s e = .done) ∨
      ((∃ k j, e = .reset k j) ∧ nextFsm s e = .idle) := by
  cases e with
  | elapse dt =>
    by_cases hcompletes : elapseCompletes s dt
    · exact .inr (.inr (.inl ⟨⟨dt, rfl, hcompletes⟩, by simp only [nextFsm, hread, if_pos hcompletes]⟩))
    · exact absurd (by simp only [nextFsm, hread, if_neg hcompletes]) hleaves
  | readReturn | readErr j | reset k j => simp [nextFsm, hread]
  | _ => exact absurd (by simp [nextFsm, hread]) hleaves

/-- Settles O38: a step that leaves the state follows a row of the table, and few rows leave `WRITE` or `READ`. -/
theorem nothingCancelsARequest : Obligations.NothingCancelsARequest := by
  intro s t h
  constructor
  · intro hwrite hleaves
    obtain ⟨e, rest, hnext, htable⟩ := step_fsm_changes h (hwrite ▸ hleaves)
    rw [htable] at hleaves ⊢
    exact ⟨e, rest, hnext, nextFsm_leaves_write hwrite hleaves⟩
  · intro hread hleaves
    obtain ⟨e, rest, hnext, htable⟩ := step_fsm_changes h (hread ▸ hleaves)
    rw [htable] at hleaves ⊢
    exact ⟨e, rest, hnext, nextFsm_leaves_read hread hleaves⟩

end Sys2Proof.Proofs
end

section
/-! PROOFS. The reply as the decoders read it: its two fields, each decoder on a packed reply, and what a decoded result
can depend on; from them the statements on the ack classes and on the reserved reply bytes. -/

namespace Sys2Proof.Proofs

open Machine Claims Laws

/-! ## Each decoder on a packed reply (R85, R86, R88 to R97) -/

section
variable (r0 r1 r2 r3 r4 : Byte)

@[simp] theorem decodeAck_packReply :
    decodeAck (packReply r0 r1 r2 r3 r4) = res .ack r3 0 (packReply r0 r1 r2 r3 r4) := by
  simp [decodeAck]

@[simp] theorem decodeCount_packReply :
    decodeCount (packReply r0 r1 r2 r3 r4) = res .count 0 (be16 r1 r2) (packReply r0 r1 r2 r3 r4) := by
  simp [decodeCount]

@[simp] theorem decodeAuth_packReply : decodeAuth (packReply r0 r1 r2 r3 r4) =
    if r3 = 0x05 ∨ r3 = 0x08 then res .authFail 0 0 (packReply r0 r1 r2 r3 r4)
    else if r3 = 1 ∨ r3 = 2 ∨ r3 = 3 then res .authMatch r3 (be16 r1 r2) (packReply r0 r1 r2 r3 r4)
    else res .authOther r3 (be16 r1 r2) (packReply r0 r1 r2 r3 r4) := by
  simp [decodeAuth]

@[simp] theorem decodeLevel_packReply : decodeLevel (packReply r0 r1 r2 r3 r4) =
    if r3 = 0x05 then res .levelFail 0 0 (packReply r0 r1 r2 r3 r4)
    else if r3 = 1 ∨ r3 = 2 ∨ r3 = 3 then res .level r3 0 (packReply r0 r1 r2 r3 r4)
    else res .levelOther r3 0 (packReply r0 r1 r2 r3 r4) := by
  simp [decodeLevel]

@[simp] theorem decodeBaud_packReply : decodeBaud (packReply r0 r1 r2 r3 r4) =
    if r3 = 1 ∨ r3 = 2 ∨ r3 = 3 ∨ r3 = 4 ∨ r3 = 5 then res .baud r3 0 (packReply r0 r1 r2 r3 r4)
    else res .baudOther r3 0 (packReply r0 r1 r2 r3 r4) := by
  simp [decodeBaud]

@[simp] theorem decodeNextId_packReply : decodeNextId (packReply r0 r1 r2 r3 r4) =
    if r3 = 0x05 ∨ r3 = 0x01 then res .idNone 0 0 (packReply r0 r1 r2 r3 r4)
    else res .id 0 (be16 r1 r2) (packReply r0 r1 r2 r3 r4) := by
  simp [decodeNextId]

end

/-! ## What a decoded result depends on (R84) -/

/-- Two replies with the same two fields decode to the same kind, aux and value. -/
theorem seen_decodeReply_congr (op : OpTag) {r q : ReplyWord} (hack : replyAck r = replyAck q)
    (hval : replyVal16 r = replyVal16 q) : (decodeReply op r).map seen = (decodeReply op q).map seen := by
  cases op with
  | rawExch | rawSend | sleep => rfl
  | enroll | removeOne | removeAll | compareOne | setCompareLevel => simp [decodeReply, decodeAck, seen, hack]
  | getUserCount => simp [decodeReply, decodeCount, seen, hval]
  | authenticate | getUserLevel | setBaudRate | getNextAvailableId =>
    simp only [decodeReply, decodeAuth, decodeLevel, decodeBaud, decodeNextId, hack, hval]
    split_ifs <;> rfl

theorem reply_of_decodeReply {op : OpTag} {reply : ReplyWord} {r : Result} (h : decodeReply op reply = some r) :
    r.reply = reply := by
  have hreply : op.expectsReply = true := by
    cases op with
    | rawSend | sleep => cases h
    | _ => rfl
  obtain rfl : decoderOf op reply = r := by simpa [decodeReply_eq_some hreply] using h
  exact decoderOf_reply hreply reply

/-! ## The statements on a reply -/

/-- Settles O24: a packed reply has the fields `r3` and `be16(r1, r2)`, and kind, aux and value depend on these alone. -/
theorem reservedReplyBytesUnread : Obligations.ReservedReplyBytesUnread := by
  refine ⟨fun r0 r1 r2 r3 r4 => ⟨replyAck_packReply .., replyVal16_packReply .., be16_toNat r1 r2⟩, rfl, ?_⟩
  intro op r0 r4 q0 q4 r1 r2 r3
  exact ⟨seen_decodeReply_congr op (by simp) (by simp), fun r => reply_of_decodeReply⟩

/-- Every byte R83 does not name has a class of its own. -/
theorem ackDecode_other {b : Byte} (h : b = 0x02 ∨ b = 0x03 ∨ 0x0A ≤ b.toNat) : ackDecode b = .other b := by
  revert b
  decide

/-- Settles O23, by the classes of the named bytes, those of the others, and the one decoder of the five operations. -/
theorem ackClasses : Obligations.AckClasses := by
  refine ⟨rfl, rfl, rfl, rfl, rfl, rfl, rfl, rfl, fun b => ackDecode_other, ?_⟩
  intro op r0 r1 r2 r3 r4 hop
  have hack : decodeReply op (packReply r0 r1 r2 r3 r4) = some (decodeAck (packReply r0 r1 r2 r3 r4)) := by
    simp only [List.mem_cons, List.not_mem_nil, or_false] at hop
    rcases hop with rfl | rfl | rfl | rfl | rfl <;> rfl
  rw [hack, decodeAck_packReply]

end Sys2Proof.Proofs
end

section
/-! PROOFS. The operations of R88 to R98. Each is the shape of an operation at its own payload, argument check and reply
decoder, and the source projection of the results it can have. -/

namespace Sys2Proof.Proofs

open Machine Claims Laws

/-! ## The shape of an operation, from its payload and its decoder -/

section
variable {i : Instr} {b1 b2 b3 b4 b5 b6 : Byte} {decode : Byte → Byte → Byte → Byte → Byte → Result}

/-- A well-formed instruction is accepted with the bytes of its payload and their checksum (R53, R62, R67). -/
theorem acceptsWith_of_payload (hwf : i.wellFormed = true) (hpayload : payloadOf i = ⟨b1, b2, b3, b4, b5⟩)
    (hsum : b1 ^^^ b2 ^^^ b3 ^^^ b4 ^^^ b5 = b6) : acceptsWith i i.tag.code 0xF5 b1 b2 b3 b4 b5 b6 0xF5 := by
  have haccepts := acceptsWith_payload hwf
  rwa [hpayload, checksum_eq, hsum] at haccepts

/-- An instruction that fails its check is refused with the code of that failure (R66 T2, R68). -/
theorem refusesWith_argError {r : RefuseCode} (h : argError i = some r) : refusesWith i i.tag.code r.code := by
  intro s hidle
  rw [exec_idle i hidle, h]
  rfl

theorem decodesReply_of_decoderOf (hreply : i.tag.expectsReply = true)
    (hdecode : ∀ r0 r1 r2 r3 r4, decoderOf i.tag (packReply r0 r1 r2 r3 r4) = decode r0 r1 r2 r3 r4) :
    decodesReply i decode := by
  simpa only [hdecode] using decodesReply_of_expectsReply hreply

/-- After acceptance: the write, the reply and the failures of the read (R66 T3, T4, T7, T8). -/
theorem completes_of_expectsReply (hreply : i.tag.expectsReply = true)
    (hdecode : ∀ r0 r1 r2 r3 r4, decoderOf i.tag (packReply r0 r1 r2 r3 r4) = decode r0 r1 r2 r3 r4) :
    readsAfterWrite i ∧ decodesReply i decode ∧ failsRead i :=
  ⟨readsAfterWrite_of_expectsReply hreply, decodesReply_of_decoderOf hreply hdecode, failsRead_of_expectsReply hreply⟩

theorem operation_of_payload (hwf : i.wellFormed = true) (hreply : i.tag.expectsReply = true)
    (hpayload : payloadOf i = ⟨b1, b2, b3, b4, b5⟩) (hsum : b1 ^^^ b2 ^^^ b3 ^^^ b4 ^^^ b5 = b6)
    (hdecode : ∀ r0 r1 r2 r3 r4, decoderOf i.tag (packReply r0 r1 r2 r3 r4) = decode r0 r1 r2 r3 r4) :
    operation i i.tag.code b1 b2 b3 b4 b5 b6 decode :=
  ⟨acceptsWith_of_payload hwf hpayload hsum, completes_of_expectsReply hreply hdecode⟩

end

/-! ## The source projection shared by the operations -/

theorem project_ack (op : OpTag) (r3 : Byte) (reply : ReplyWord) :
    project op (res .ack r3 0 reply) = some (.ack (ackDecode r3)) := rfl

theorem errorProjects_of_ne_sleep {op : OpTag} (h : op ≠ .sleep) : errorProjects op (projectTransportError op) :=
  fun _ => if_neg h

/-! ## Operations without an argument check -/

/-- Settles O11: the payload carries the uid, and the reply is its ack byte. -/
theorem removeOneOperation : Obligations.RemoveOneOperation :=
  ⟨fun _ => operation_of_payload rfl rfl rfl (by simp) decodeAck_packReply, project_ack _,
    errorProjects_of_ne_sleep nofun⟩

/-- Settles O12: the payload is the bare command byte, and the reply is its ack byte. -/
theorem removeAllOperation : Obligations.RemoveAllOperation :=
  ⟨operation_of_payload rfl rfl rfl rfl decodeAck_packReply, project_ack _, errorProjects_of_ne_sleep nofun⟩

/-- Settles O13: the bare payload, and the decoder that reads `be16(r1, r2)` alone. -/
theorem getUserCountOperation : Obligations.GetUserCountOperation :=
  ⟨operation_of_payload rfl rfl rfl rfl decodeCount_packReply, be16_toNat, fun _ _ => rfl,
    errorProjects_of_ne_sleep nofun⟩

/-- Settles O14: the payload carries the uid, and the reply is its ack byte. -/
theorem compareOneOperation : Obligations.CompareOneOperation :=
  ⟨fun _ => operation_of_payload rfl rfl rfl (by simp) decodeAck_packReply, project_ack _,
    errorProjects_of_ne_sleep nofun⟩

/-- Settles O15: the bare payload, and the decoder that asks for a failure before a match. -/
theorem authenticateOperation : Obligations.AuthenticateOperation :=
  ⟨operation_of_payload rfl rfl rfl rfl decodeAuth_packReply, fun _ _ => ⟨rfl, rfl, rfl, rfl⟩,
    errorProjects_of_ne_sleep nofun, fun _ _ _ => rfl⟩

/-- Settles O16: the payload carries the uid, and the decoder reads the ack byte as a level. -/
theorem getUserLevelOperation : Obligations.GetUserLevelOperation :=
  ⟨fun _ => operation_of_payload rfl rfl rfl (by simp) decodeLevel_packReply, fun _ => ⟨rfl, rfl, rfl, rfl⟩,
    errorProjects_of_ne_sleep nofun, fun _ _ => rfl⟩

/-- Settles O19: both ids fill the payload unchecked, and an id, being a natural number, is no negative sentinel. -/
theorem getNextAvailableIdOperation : Obligations.GetNextAvailableIdOperation := by
  have hid (v : Word16) {n : Int} (hneg : n < 0) : SourceValue.int v.toNat ≠ .int n := by
    simp only [ne_eq, SourceValue.int.injEq]
    omega
  exact ⟨fun _ _ => operation_of_payload rfl rfl rfl rfl decodeNextId_packReply,
    fun v _ => ⟨rfl, rfl, hid v (by decide), hid v (by decide)⟩, errorProjects_of_ne_sleep nofun, by decide⟩

/-! ## Operations with an argument check -/

/-- A stage outside 1 to 3 fails line 2 of R68. -/
theorem argCheck_badStage {c : Command} (hop : c.op = 0x2) (hstage : ¬ (c.s8 = 1 ∨ c.s8 = 2 ∨ c.s8 = 3)) :
    argCheck c = some .badStage := by
  have hreserved : ¬ (c.op = 0xD ∨ c.op = 0xE ∨ c.op = 0xF) := by
    rw [hop]
    decide
  exact (if_neg hreserved).trans (if_pos ⟨hop, hstage⟩)

/-- A command with such a stage is refused at the step with code 0x02 (R68 line 2). -/
theorem step_badStage {s : State} {c : Command} {rest : List Event} (hidle : s.fsm = .idle)
    (hnext : comesNext s (.present c) rest) (hop : c.op = 0x2) (hstage : ¬ (c.s8 = 1 ∨ c.s8 = 2 ∨ c.s8 = 3)) :
    step s = .next (refuse 0x2 .badStage { s with script := rest }) := by
  rw [step_cons hnext, ← hop]
  exact presentCommand_refused (s := { s with script := rest }) hidle (argCheck_badStage hop hstage)

@[simp] theorem payloadOf_enrollInstr (stage : EnrollStage) (uid : Word16) (level : Byte) :
    payloadOf (enrollInstr stage uid level) = payloadEnroll stage uid level := by
  cases stage <;> rfl

theorem wellFormed_enrollInstr (stage : EnrollStage) (uid : Word16) (level : Byte) :
    (enrollInstr stage uid level).wellFormed = sendableLevel level := by
  cases stage <;> rfl

/-- Settles O10: the stages differ in their command byte alone, and a byte that is no stage fails the check of the port. -/
theorem enrollOperation : Obligations.EnrollOperation := by
  refine ⟨?operation, fun s c rest hidle hnext hop h1 h2 h3 => ?badStage, rfl, rfl, rfl, project_ack _,
    errorProjects_of_ne_sleep nofun⟩
  case operation =>
    intro stage uid level i
    have htag : i.tag = .enroll := enrollInstr_tag stage uid level
    have hcode : i.tag.code = 0x2 := congrArg OpTag.code htag
    have hreply : i.tag.expectsReply = true := congrArg OpTag.expectsReply htag
    rw [← hcode]
    refine ⟨fun hlevel => ?accepted, fun hlevel => ?refused, completes_of_expectsReply hreply ?decoder⟩
    case accepted =>
      have hwf : i.wellFormed = true := (wellFormed_enrollInstr ..).trans ((sendableLevel_iff level).2 hlevel)
      exact acceptsWith_of_payload hwf (payloadOf_enrollInstr ..) (by simp)
    case refused =>
      have hcheck : checkLevel level = some .badLevel := if_neg fun h => hlevel ((sendableLevel_iff level).1 h)
      exact refusesWith_argError ((argError_enrollInstr ..).trans hcheck)
    case decoder =>
      rw [htag]
      exact decodeAck_packReply
  case badStage => exact step_badStage hidle hnext hop (not_or.2 ⟨h1, not_or.2 ⟨h2, h3⟩⟩)

/-- Settles O17: the check passes exactly the levels up to 9. -/
theorem setCompareLevelOperation : Obligations.SetCompareLevelOperation := by
  refine ⟨?_, project_ack _, errorProjects_of_ne_sleep nofun⟩
  intro v i
  refine ⟨fun hin => ?_, fun hover => ?_, completes_of_expectsReply rfl decodeAck_packReply⟩
  · have hsum : (0x28 : Byte) ^^^ 0x00 ^^^ v ^^^ 0x01 ^^^ 0x00 = 0x29 ^^^ v := by
      simp only [BitVec.ofNat_eq_ofNat, BitVec.xor_zero]
      rw [BitVec.xor_assoc, BitVec.xor_comm v, ← BitVec.xor_assoc]
      rfl
    exact acceptsWith_of_payload (decide_eq_true hin) rfl hsum
  · have hbad : argError i = some .badCompareLevel := if_neg (by simpa [compareLevelInRange] using hover)
    exact refusesWith_argError hbad

/-- Settles O18: the check passes exactly the five codes. -/
theorem setBaudRateOperation : Obligations.SetBaudRateOperation := by
  refine ⟨?_, fun _ => ⟨rfl, rfl, rfl, rfl, rfl⟩, errorProjects_of_ne_sleep nofun, fun _ _ => rfl⟩
  intro b i
  refine ⟨fun hin => ?_, fun hout => ?_, completes_of_expectsReply rfl decodeBaud_packReply⟩
  · exact acceptsWith_of_payload ((sendableBaud_iff b).2 hin) rfl (by simp)
  · have hbad : argError i = some .badBaud := if_neg fun h => hout ((sendableBaud_iff b).1 h)
    exact refusesWith_argError hbad

/-! ## The send without a report -/

/-- Settles O22: SLEEP's completion rule does not look at the write's result. -/
theorem sleepOperation : Obligations.SleepOperation :=
  ⟨acceptsWith_of_payload rfl rfl rfl, fun _ _ hwrite hport => exec_write .sleep hwrite hport, rfl⟩

end Sys2Proof.Proofs
end

section
/-! PROOFS. The entry of an error result: a reply is never decoded to an error, so an error enters `DONE` from a refusal or
from a failed write or read alone, and those write no register but the result's, a refusal `op_q` besides. -/

namespace Sys2Proof.Proofs

open Machine Claims Laws

/-- The two kinds of an error result (R102, R104). -/
def isErrorKind (kind : ResKind) : Prop := kind = .transportError ∨ kind = .argRefused

/-- No decoder answers an error, the four with a choice on none of their branches (R85, R86, R93, R97). -/
theorem decoderOf_not_error (op : OpTag) (r : ReplyWord) : ¬ isErrorKind (decoderOf op r).kind := by
  cases op with
  | authenticate | getUserLevel | setBaudRate | getNextAvailableId =>
    simp only [decoderOf, decodeReply, Option.getD_some, decodeAuth, decodeLevel, decodeBaud, decodeNextId]
    split_ifs <;> exact nofun
  | _ => exact nofun

/-- A failed write or read writes no register but the result's, whose value and reply are zero (R102, R106). -/
theorem raiseTransportError_precise (c : Cause) (s : State) :
    let t := raiseTransportError c (clearPort s)
    t.frame = s.frame ∧ t.rbuf = s.rbuf ∧ t.res.value = 0 ∧ t.res.reply = 0 ∧
      (s.fsm ≠ .idle → t.opQ = s.opQ ∧ t.res.kind = .transportError) :=
  ⟨rfl, rfl, rfl, rfl, fun _ => ⟨rfl, rfl⟩⟩

/-- Settles O33, by the eight things a transition can be: three of them enter an error. -/
theorem errorEntryIsPrecise : Obligations.ErrorEntryIsPrecise := by
  intro i s t h hbusy hdone herror
  rcases exec_cases h with ⟨_, rfl⟩ | ⟨_, hidle, _, rfl⟩ | ⟨_, _, _, rfl⟩ | ⟨_, _, _, _, rfl⟩ |
    ⟨_, _, _, _, rfl⟩ | ⟨_, _, _, _, _, _, _, _, _, rfl⟩ | ⟨_, _, _, _, rfl⟩ | ⟨_, rfl⟩
  · cases hdone
  · exact ⟨rfl, rfl, rfl, rfl, fun hstarted => absurd hidle hstarted⟩
  · cases hdone
  · exact absurd herror nofun
  · exact raiseTransportError_precise _ s
  · exact absurd herror (decoderOf_not_error i.tag _)
  · exact raiseTransportError_precise _ s
  · exact absurd hdone hbusy

end Sys2Proof.Proofs
end

section
/-! PROOFS. Reset against a coinciding event (R105): reset as one equation of the step, the schedules that stand for the
coincidence, and reset followed or preceded by the Device's append. -/

namespace Sys2Proof.Proofs

open Machine Claims Laws

/-! ## Reset -/

theorem drop_min_length {α : Type} (j : Nat) (xs : List α) : xs.drop (min j xs.length) = xs.drop j := by
  rcases le_total j xs.length with hle | hge
  · rw [min_eq_left hle]
  · rw [min_eq_right hge, List.drop_length, List.drop_of_length_le hge]

theorem resetMachine_eq_resetOf (k : Fin 9) (j : Fin 5) (s : State) : resetMachine k j s = resetOf k j s := by
  unfold resetMachine abandonRequest resetOf
  rw [drop_min_length]
  cases s.fsm <;> rfl

/-- The RX stream before a reset decides the RX stream after it, and nothing else (R117, R118). -/
theorem resetOf_with_rx (k : Fin 9) (j : Fin 5) (s : State) (rx : List Byte) :
    resetOf k j { s with rx } = { resetOf k j s with rx := if s.fsm = .read then rx.drop j else rx } := by
  simp [resetOf, drop_min_length]

theorem resetOf_rx (k : Fin 9) (j : Fin 5) (s : State) :
    (resetOf k j s).rx = if s.fsm = .read then s.rx.drop j else s.rx :=
  congrArg State.rx (resetOf_with_rx k j s s.rx)

theorem step_reset {s : State} {k : Fin 9} {j : Fin 5} {rest : List Event} (hnext : comesNext s (.reset k j) rest) :
    step s = .next (resetOf k j { s with script := rest }) := by
  rw [step_cons hnext, handle, resetMachine_eq_resetOf]

/-! ## The schedules of a coincidence with reset -/

/-- With an event that is no append only one reset runs; of two resets it is the one named first (R105 item 5). -/
theorem eq_reset_of_coincident {k : Fin 9} {j : Fin 5} {e : Event} {order : List Event}
    (he : ∀ bytes, e ≠ .deviceSends bytes)
    (h : order ∈ Safety.coincident (.reset k j) e ∨ order ∈ Safety.coincident e (.reset k j)) :
    ∃ k' j', (e = .reset k' j' ∨ (k' = k ∧ j' = j)) ∧ order = [.reset k' j'] := by
  cases e with
  | deviceSends bytes => exact absurd rfl (he bytes)
  | reset k' j' =>
    rcases h with hfirst | hsecond
    · exact ⟨k, j, .inr ⟨rfl, rfl⟩, List.mem_singleton.1 hfirst⟩
    · exact ⟨k', j', .inl rfl, List.mem_singleton.1 hsecond⟩
  | _ => exact ⟨k, j, .inr ⟨rfl, rfl⟩, List.mem_singleton.1 (h.elim id id)⟩

/-! With an append both orders run, whichever is named first (R105 items 4 and 5). -/

theorem coincident_reset_append (k : Fin 9) (j : Fin 5) (bytes : List Byte) :
    Safety.coincident (.reset k j) (.deviceSends bytes) =
      [[.reset k j, .deviceSends bytes], [.deviceSends bytes, .reset k j]] := rfl

theorem coincident_append_reset (k : Fin 9) (j : Fin 5) (bytes : List Byte) :
    Safety.coincident (.deviceSends bytes) (.reset k j) =
      [[.deviceSends bytes, .reset k j], [.reset k j, .deviceSends bytes]] := rfl

/-! ## The runs of those schedules -/

theorem run_reset {s : State} {k : Fin 9} {j : Fin 5} {rest : List Event} (hnext : comesNext s (.reset k j) rest) :
    Host.Core.run core 1 s = .next (resetOf k j { s with script := rest }) :=
  run_succ (M := core) 0 (step_reset hnext)

/-- Bytes that come after the reset all stay. -/
theorem run_reset_append {s : State} {k : Fin 9} {j : Fin 5} {bytes : List Byte} {rest : List Event}
    (hnext : comesNext s (.reset k j) (.deviceSends bytes :: rest)) :
    Host.Core.run core 2 s = .next { resetOf k j { s with script := rest } with
      rx := if s.fsm = .read then s.rx.drop j ++ bytes else s.rx ++ bytes } := by
  have happended := deviceAppendsAtTheEnd (resetOf k j { s with script := .deviceSends bytes :: rest }) bytes rest rfl
  rw [resetOf_rx, apply_ite (· ++ bytes)] at happended
  calc Host.Core.run core 2 s
    _ = Host.Core.run core 1 _ := run_succ (M := core) 1 (step_reset hnext)
    _ = Host.Core.run core 0 _ := run_succ (M := core) 0 happended

/-- Bytes that come before the reset are within reach of an abandoned read. -/
theorem run_append_reset {s : State} {k : Fin 9} {j : Fin 5} {bytes : List Byte} {rest : List Event}
    (hnext : comesNext s (.deviceSends bytes) (.reset k j :: rest)) :
    Host.Core.run core 2 s = .next { resetOf k j { s with script := rest } with
      rx := if s.fsm = .read then (s.rx ++ bytes).drop j else s.rx ++ bytes } := by
  calc Host.Core.run core 2 s
    _ = Host.Core.run core 1 _ := run_succ (M := core) 1 (deviceAppendsAtTheEnd s bytes _ hnext)
    _ = .next (resetOf k j _) := run_reset rfl
    _ = .next _ := congrArg _ (resetOf_with_rx k j { s with script := rest } _)

/-- Settles O49, by the schedules of a coincidence and the run of each. -/
theorem resetTakesPrecedence : Obligations.ResetTakesPrecedence := by
  refine ⟨fun s k j e order rest he horder => ?_, fun s k j bytes order rest horder => ?_,
    fun k j bytes order horder => ?_⟩
  · obtain ⟨k', j', hdraws, rfl⟩ := eq_reset_of_coincident he horder
    exact ⟨k', j', hdraws, run_reset rfl⟩
  · rw [coincident_reset_append, coincident_append_reset, List.mem_pair, List.mem_pair] at horder
    have horders := horder.elim id Or.symm
    refine ⟨horders, ?_⟩
    rcases horders with rfl | rfl
    · exact (run_reset_append rfl).trans (by simp)
    · exact (run_append_reset rfl).trans (by simp)
  · rw [coincident_reset_append, coincident_append_reset]
    exact ⟨horder, List.mem_pair.2 (List.mem_pair.1 horder).symm⟩

end Sys2Proof.Proofs
end

section
/-! PROOFS. Reset in any state (R116, R117, R118): the step's equation, and the two status outputs in the state after it. -/

namespace Sys2Proof.Proofs

open Machine Claims Laws

@[simp] theorem resetOf_fsm (k : Fin 9) (j : Fin 5) (s : State) : (resetOf k j s).fsm = .idle := rfl

/-- After a reset the block takes commands (R18, R116). -/
theorem resetOf_cmdReady (k : Fin 9) (j : Fin 5) (s : State) : (resetOf k j s).cmdReady = true := by
  simp [State.cmdReady]

/-- After a reset no result is held (R18, R116). -/
theorem resetOf_resValid (k : Fin 9) (j : Fin 5) (s : State) : (resetOf k j s).resValid = false := by
  simp [State.resValid]

/-- Settles O48, by the step's equation for reset (`step_reset`) and the FSM state after it. -/
theorem resetFromAnyState : Obligations.ResetFromAnyState :=
  fun s k j _ hnext => ⟨step_reset hnext, resetOf_cmdReady k j s, resetOf_resValid k j s⟩

end Sys2Proof.Proofs
end
